-- ==== Sys2Proof/Word.lean ====
section
/-! DEFINITION. The word types of HUFFCORE, with the widths of 00_scope.md R7 and R9. Every value is unsigned. -/

namespace Sys2Proof

/-- One byte of shared memory (20_memory.md R60). -/
abbrev Byte := BitVec 8

/-- A symbol, "a byte value in [0,255]" (00_scope.md R7, SYM_W = 8). -/
abbrev Sym := BitVec 8

/-- A register, REG_W = 32 (00_scope.md R7); also a frequency-table entry, FREQ_W = 32. -/
abbrev Word := BitVec 32

/-- A shared-memory byte address, ADDR_W = 32 (00_scope.md R7). -/
abbrev Addr := BitVec 32

/-- A node's frequency, IFREQ_W = 40 (00_scope.md R7). -/
abbrev NodeFreq := BitVec 40

/-- An arena index: 9 bits wide, and one of the NODE_CAP = 511 entries (10_state.md R39; notes/assumptions/19.md). -/
abbrev NodeIdx := Fin 511

end Sys2Proof
end

