-- ==== Sys2Proof/Syntax.lean ====
section
/-! DEFINITION. The ten commands of HUFFCORE (30_encoding.md R84) and the fields of a command word (R81). -/

namespace Sys2Proof

/-- A command. SYM is the only operand inside the word (30_encoding.md R82); every other operand is a latched
register (R91). -/
inductive Instr where
  /-- CLRFREQ, 40_frequency_table.md R100. -/
  | clrfreq
  /-- SETFREQ sym, 40_frequency_table.md R101. -/
  | setfreq (sym : Sym)
  /-- LDFREQ, 40_frequency_table.md R102. -/
  | ldfreq
  /-- BUILD, 41_tree_builder.md R123. -/
  | build
  /-- GENCODES, 42_code_generator.md R141. -/
  | gencodes
  /-- RDCODE sym, 42_code_generator.md R144. -/
  | rdcode (sym : Sym)
  /-- ENCODE, 44_encoder_packer.md R193. -/
  | encode
  /-- DECODE, 45_decoder_unpacker.md R213. -/
  | decode
  /-- SAVE, 43_tree_codec.md R161. -/
  | save
  /-- LOAD, 43_tree_codec.md R167. -/
  | load
  deriving DecidableEq, Repr

/-- The three fields of CMD32 (30_encoding.md R81): OPC is bits 7:0, SYM bits 15:8, RSV bits 31:16. -/
structure Fields where
  opc : BitVec 8
  sym : BitVec 8
  rsv : BitVec 16
  deriving DecidableEq, Repr

/-- The opcode of each command (30_encoding.md R84). -/
def Instr.opcode : Instr → BitVec 8
  | .clrfreq => 0x01#8
  | .setfreq _ => 0x02#8
  | .ldfreq => 0x03#8
  | .build => 0x10#8
  | .gencodes => 0x11#8
  | .rdcode _ => 0x12#8
  | .encode => 0x20#8
  | .decode => 0x21#8
  | .save => 0x30#8
  | .load => 0x31#8

/-- The SYM field of each command: the symbol operand of SETFREQ and RDCODE, 0 in every other (30_encoding.md R81). -/
def Instr.symField : Instr → BitVec 8
  | .setfreq sym => sym
  | .rdcode sym => sym
  | .clrfreq => 0#8
  | .ldfreq => 0#8
  | .build => 0#8
  | .gencodes => 0#8
  | .encode => 0#8
  | .decode => 0#8
  | .save => 0#8
  | .load => 0#8

/-- The fields of a command's word: RSV must be 0 (30_encoding.md R81). -/
def Instr.fields (i : Instr) : Fields := ⟨i.opcode, i.symField, 0#16⟩

end Sys2Proof
end

