-- ==== Sys2Proof/WellFormed.lean ====
section
/-! DEFINITION. Which command words are well formed: the three checks of 30_encoding.md R87, on the word's fields.
A term of Instr holds an 8-bit SYM and nothing else, so every one of them passes. -/

namespace Sys2Proof

/-- The assigned opcodes (30_encoding.md R84). -/
def assignedOpcodes : List (BitVec 8) :=
  [0x01#8, 0x02#8, 0x03#8, 0x10#8, 0x11#8, 0x12#8, 0x20#8, 0x21#8, 0x30#8, 0x31#8]

/-- SETFREQ and RDCODE use SYM; in every other command it must be 0 (30_encoding.md R81). -/
def opcodeTakesSym (opc : BitVec 8) : Bool := opc == 0x02#8 || opc == 0x12#8

/-- Check 1 of 30_encoding.md R87: the opcode is one of the ten. -/
def Fields.opcodeOk (f : Fields) : Bool := assignedOpcodes.contains f.opc

/-- Check 2 of 30_encoding.md R87: RSV is 0. -/
def Fields.reservedOk (f : Fields) : Bool := f.rsv == 0#16

/-- Check 3 of 30_encoding.md R87: SYM is 0 unless the opcode takes it. -/
def Fields.symOk (f : Fields) : Bool := opcodeTakesSym f.opc || f.sym == 0#8

/-- A word is a command's exactly when its fields pass the three checks of 30_encoding.md R87. -/
def Fields.wellFormed (f : Fields) : Bool := f.opcodeOk && f.reservedOk && f.symOk

/-- A command is well formed when its own word's fields are. -/
def Instr.wellFormed (i : Instr) : Bool := i.fields.wellFormed

end Sys2Proof
end

