-- ==== Sys2Proof/Decode.lean ====
section
/-! DEFINITION. The decoder of 30_encoding.md R87, total on any 32-bit word, and after it the encoder of R84. -/

namespace Sys2Proof

/-- Why a word selects no command; the number is IllegalCommand's ERRDATA (60_exceptions.md R231). -/
inductive IllegalReason where
  /-- 1: the opcode is unassigned. -/
  | unassignedOpcode
  /-- 2: SYM is not 0 in a command that does not take it. -/
  | nonzeroSym
  /-- 3: RSV is not 0. -/
  | nonzeroRsv
  deriving DecidableEq, Repr

/-- ERRDATA of IllegalCommand (60_exceptions.md R231). -/
def IllegalReason.number : IllegalReason → BitVec 11
  | .unassignedOpcode => 1#11
  | .nonzeroSym => 2#11
  | .nonzeroRsv => 3#11

/-- The fields of a command word (30_encoding.md R81). -/
def Fields.ofWord (w : Word) : Fields :=
  ⟨w.extractLsb' 0 8, w.extractLsb' 8 8, w.extractLsb' 16 16⟩

/-- The command of an opcode (30_encoding.md R84); `none` for an unassigned one. -/
def instrOfOpcode (opc : BitVec 8) (sym : Sym) : Option Instr :=
  if opc = 0x01#8 then some .clrfreq
  else if opc = 0x02#8 then some (.setfreq sym)
  else if opc = 0x03#8 then some .ldfreq
  else if opc = 0x10#8 then some .build
  else if opc = 0x11#8 then some .gencodes
  else if opc = 0x12#8 then some (.rdcode sym)
  else if opc = 0x20#8 then some .encode
  else if opc = 0x21#8 then some .decode
  else if opc = 0x30#8 then some .save
  else if opc = 0x31#8 then some .load
  else none

/-- Decode in the order of 30_encoding.md R87: opcode, then RSV, then SYM. -/
def decodeFields (f : Fields) : Except IllegalReason Instr :=
  match instrOfOpcode f.opc f.sym with
  | none => .error .unassignedOpcode
  | some i =>
    if f.rsv ≠ 0#16 then .error .nonzeroRsv
    else if !opcodeTakesSym f.opc && f.sym != 0#8 then .error .nonzeroSym
    else .ok i

/-- Decode a command word; the same in every state (30_encoding.md R90). -/
def decode (w : Word) : Except IllegalReason Instr := decodeFields (Fields.ofWord w)

/-- The word of a set of fields, `{RSV, SYM, OPC}` (30_encoding.md R81). -/
def Fields.toWord (f : Fields) : Word := f.rsv ++ f.sym ++ f.opc

/-- The command word of a command (30_encoding.md R84). -/
def encode (i : Instr) : Word := i.fields.toWord

/-- One row of 30_encoding.md R84. -/
structure OpcodeRow where
  mnemonic : String
  pattern : Word
  mask : Word
  deriving DecidableEq, Repr

/-- The opcode table of 30_encoding.md R84, row by row. -/
def opcodeTable : List OpcodeRow :=
  [ ⟨"CLRFREQ", 0x00000001#32, 0xFFFFFFFF#32⟩,
    ⟨"SETFREQ", 0x00000002#32, 0xFFFF00FF#32⟩,
    ⟨"LDFREQ", 0x00000003#32, 0xFFFFFFFF#32⟩,
    ⟨"BUILD", 0x00000010#32, 0xFFFFFFFF#32⟩,
    ⟨"GENCODES", 0x00000011#32, 0xFFFFFFFF#32⟩,
    ⟨"RDCODE", 0x00000012#32, 0xFFFF00FF#32⟩,
    ⟨"ENCODE", 0x00000020#32, 0xFFFFFFFF#32⟩,
    ⟨"DECODE", 0x00000021#32, 0xFFFFFFFF#32⟩,
    ⟨"SAVE", 0x00000030#32, 0xFFFFFFFF#32⟩,
    ⟨"LOAD", 0x00000031#32, 0xFFFFFFFF#32⟩ ]

/-- "A command word w selects a row when w & mask = match" (30_encoding.md R84). -/
def OpcodeRow.selects (r : OpcodeRow) (w : Word) : Bool := w &&& r.mask == r.pattern

/-- The mnemonic of a command (30_encoding.md R84). -/
def Instr.mnemonic : Instr → String
  | .clrfreq => "CLRFREQ"
  | .setfreq _ => "SETFREQ"
  | .ldfreq => "LDFREQ"
  | .build => "BUILD"
  | .gencodes => "GENCODES"
  | .rdcode _ => "RDCODE"
  | .encode => "ENCODE"
  | .decode => "DECODE"
  | .save => "SAVE"
  | .load => "LOAD"

/-- The command read from an opcode-table word `w` of `nbits` bits, the bits above `nbits` being 0. A command is
exactly one 32-bit word, with bit 0 least significant (30_encoding.md R80), so a longer number is no command. -/
def decodeTableWord (nbits w : Nat) : Option Instr :=
  if w % 2 ^ nbits < 2 ^ 32 then (decode (BitVec.ofNat 32 (w % 2 ^ nbits))).toOption else none

end Sys2Proof
end

