-- ==== Sys2Proof/Machine/Types.lean ====
section
/-! DEFINITION. The data types State is made of: the arena, the code table's entries, the shared memory, the platform
and the host's inputs. -/

namespace Sys2Proof.Machine

/-- The engine mode (10_state.md R21). -/
inductive EngineMode where
  | idle
  | busy
  deriving DecidableEq, Repr

/-- An arena entry, a "discriminated union" of two kinds (10_state.md R39). -/
inductive Node where
  | leaf (sym : Sym) (freq : NodeFreq)
  | internal (left right : NodeIdx) (freq : NodeFreq)
  deriving DecidableEq, Repr, Inhabited

/-- The node arena with its root and leaf count (10_state.md R39, R40). -/
structure Arena where
  /-- NODE[0] to NODE[510]. -/
  node : Vector Node 511
  /-- ROOT. -/
  root : NodeIdx
  /-- NLEAVES, a 9-bit count. -/
  nleaves : BitVec 9
  deriving DecidableEq, Repr, Inhabited

/-- A code-table entry (10_state.md R43): bit c_j of the code is bit j of `bits` (notes/assumptions/18.md). -/
structure CodeEntry where
  len : BitVec 8
  bits : BitVec 255
  deriving DecidableEq, Repr, Inhabited

/-- The shared memory (20_memory.md R60), in one canonical form (`Memory.wf` in Memory.lean). -/
abbrev Memory := List Host.Cell

/-- The kind of an engine access (20_memory.md R64). -/
inductive AccessKind where
  | read
  | write
  deriving DecidableEq, Repr

/-- A region [base, base + len) of shared memory (20_memory.md R66). -/
structure Region where
  base : Addr
  len : Nat
  deriving DecidableEq, Repr

/-- The regions a command names (30_encoding.md R91). -/
structure CommandRegions where
  source : Region
  dest : Region
  deriving DecidableEq, Repr

/-- A region whose engine accesses of one kind the platform answers with a bus error (20_memory.md R64). -/
structure ErrorRegion where
  region : Region
  kind : AccessKind
  deriving DecidableEq, Repr

/-- What the spec leaves to the platform, as data: the OPEN parameters REG_BASE and bus_error (00_scope.md R7), and
which addresses are no ordinary memory (20_memory.md R65, R70). -/
structure Platform where
  regBase : Nat
  busErrors : List ErrorRegion
  devices : List Region
  deriving DecidableEq, Repr

/-- One access of the host (00_scope.md R13): to a register, by host address and width in bits, to a byte of the
shared memory, or a look at the interrupt output. -/
inductive HostOp where
  | regRead (addr width : Nat)
  | regWrite (addr width : Nat) (value : Word)
  | memRead (addr : Addr)
  | memWrite (addr : Addr) (value : Byte)
  /-- The host looks at IRQ (60_exceptions.md R240). -/
  | irqLook
  deriving DecidableEq, Repr

/-- What the host hears from its last access. -/
inductive HostResponse where
  /-- No access yet. -/
  | none
  /-- A write was taken. -/
  | ack
  /-- The 32 bits a register read returned. -/
  | data (value : Word)
  /-- The byte a shared-memory read returned. -/
  | byte (value : Byte)
  /-- The level of IRQ. -/
  | line (asserted : Bool)
  /-- The bus-error response of 10_state.md R23. -/
  | busError
  /-- The address is outside the register block (notes/assumptions/5.md). -/
  | notSelected
  deriving DecidableEq, Repr

/-- What happens next, seen from outside (00_scope.md R13, 60_exceptions.md R241; notes/assumptions/1.md). -/
inductive Input where
  /-- The engine moves. -/
  | engine
  /-- The host makes an access. -/
  | host (op : HostOp)
  /-- A host access and an engine completion fall in the same cycle (60_exceptions.md R241). -/
  | hostWithEngine (op : HostOp)
  /-- The platform asserts reset (70_reset_and_hazards.md R260). -/
  | reset
  /-- The platform changes which engine accesses fail, which it may do only between commands (20_memory.md R64). -/
  | setBusErrors (regions : List ErrorRegion)
  deriving DecidableEq, Repr

end Sys2Proof.Machine
end

