-- ==== Sys2Proof/Config.lean ====
section
/-! DEFINITION. The implementation parameters of 00_scope.md R7, and the free values: constants with no body, for what
the spec leaves at "any value". -/

namespace Sys2Proof.Config

/-- NSYM, the size of the alphabet (00_scope.md R7). -/
def nsym : Nat := 256

/-- NODE_CAP, the size of the arena (00_scope.md R7). -/
def nodeCap : Nat := 511

/-- The byte at the address of a failing write (93_implementation_defined.md U4) and the bytes of the destination of a
command abandoned by reset (U7): free values (notes/assumptions/12.md, 13.md). -/
opaque freeByte : Nat → Byte

/-- NODE, ROOT and NLEAVES after a failed BUILD or LOAD (60_exceptions.md R237, 93_implementation_defined.md U2):
free values (notes/assumptions/14.md). -/
opaque freeArena : Nat → Machine.Arena

/-- Arena entries that a successful BUILD or LOAD does not write (93_implementation_defined.md U2): free values
(notes/assumptions/15.md). -/
opaque freeNode : Nat → Fin 511 → Machine.Node

/-- CODE once CODES_VALID is cleared (10_state.md R43, 93_implementation_defined.md U2): free values
(notes/assumptions/15.md). -/
opaque freeCode : Nat → Fin 256 → Machine.CodeEntry

/-- LCMD and LARG0 to LARG3 after a completion (10_state.md R45, 93_implementation_defined.md U5): free values
(notes/assumptions/9.md). -/
opaque freeWord : Nat → Word

end Sys2Proof.Config
end

