-- ==== Sys2Proof/Machine/State.lean ====
section
/-! DEFINITION. The state of HUFFCORE (10_state.md R20), of the shared memory and of the platform around it, the reasons
a step can stop, and the state after reset (R48). -/

namespace Sys2Proof.Machine

/-- The whole state. STATUS, INFO and IRQ are views of it (Flags.lean); transient state lives inside a command's
meaning (notes/assumptions/2.md). -/
structure State where
  /-- ENG, read as STATUS.BUSY (10_state.md R21, R26). -/
  eng : EngineMode
  /-- LCMD, the latched command word (10_state.md R45). -/
  lcmd : Word
  /-- LARG0 to LARG3, the latched operands (10_state.md R45). -/
  larg0 : Word
  larg1 : Word
  larg2 : Word
  larg3 : Word
  /-- STATUS.DONE (10_state.md R27). -/
  done : Bool
  /-- STATUS.TREE_VALID (10_state.md R28). -/
  treeValid : Bool
  /-- STATUS.CODES_VALID (10_state.md R29). -/
  codesValid : Bool
  /-- STATUS.CMDLOST (10_state.md R30). -/
  cmdLost : Bool
  /-- STATUS.ERR (10_state.md R31). -/
  err : BitVec 4
  /-- CTRL.IE (10_state.md R32). -/
  ie : Bool
  /-- ARG0 to ARG3 (10_state.md R33). -/
  arg0 : Word
  arg1 : Word
  arg2 : Word
  arg3 : Word
  /-- RESULT0 and RESULT1 (10_state.md R34). -/
  result0 : Word
  result1 : Word
  /-- ERRPOS and ERRDATA (10_state.md R35). -/
  errPos : Word
  errData : Word
  /-- FREQ (10_state.md R37). -/
  freq : Vector Word 256
  /-- FW (10_state.md R38). -/
  fw : Vector Bool 256
  /-- NODE, ROOT and NLEAVES (10_state.md R39, R40). -/
  arena : Arena
  /-- CODE (10_state.md R43). -/
  code : Vector CodeEntry 256
  /-- The shared memory (20_memory.md R60; notes/assumptions/3.md). -/
  mem : Memory
  /-- REG_BASE, bus_error and the platform's devices (00_scope.md R7, 20_memory.md R65; notes/assumptions/4.md, 5.md). -/
  platform : Platform
  /-- What happens next, in order (notes/assumptions/1.md). -/
  inputs : List Input
  /-- What the host heard from its last access (notes/assumptions/21.md). -/
  response : HostResponse
  /-- The model's own: the regions of commands that are over and whose completion the host has not observed, newest first
  (20_memory.md R71(d); notes/assumptions/32.md). -/
  unobserved : List CommandRegions
  /-- The model's own: how many free values were taken (notes/assumptions/16.md). -/
  freeCount : Nat
  deriving DecidableEq, Repr

/-- Why the machine stops. Each is asked for by the spec's own treatment column or rules out a state no run reaches. -/
inductive Fault where
  /-- Raised by BUILD when some FW[s] = 0 (70_reset_and_hazards.md R266, 93_implementation_defined.md U1: "it treats
  that BUILD as a fault"). Safe (notes/assumptions/10.md). -/
  | unwrittenFrequency
  /-- Raised by a host access to a command's regions between its issue and the host's observing its completion
  (20_memory.md R71(d), 70_reset_and_hazards.md R271(c); 93_implementation_defined.md U3, treatment "fault"). Safe
  (notes/assumptions/11.md, 32.md). -/
  | exclusionViolated (addr : Addr)
  /-- Raised by the engine when a command reads or writes a region that maps a device: its results are unspecified
  (20_memory.md R65, 93_implementation_defined.md U3, treatment "fault"). Safe (notes/assumptions/4.md, 30.md). -/
  | regionMapsDevice
  /-- Raised by GENCODES, SAVE and DECODE when TREE_VALID = 1 but the arena holds no tree: 10_state.md R28 and R41 rule
  it out, and no run from reset reaches it. Safe (notes/assumptions/17.md). -/
  | arenaHoldsNoTree
  deriving DecidableEq, Repr

/-- Why a step has no meaning. -/
inductive Refusal where
  /-- Raised by an arm of exec that has no meaning yet; no arm does. Safe. -/
  | notModelled (mnemonic : String)
  /-- Raised by the platform input that changes bus_error while a command runs; 20_memory.md R64 says it is fixed
  then. Safe (notes/assumptions/4.md). -/
  | busErrorsChangedWhileBusy
  /-- Raised by a host access to a device's address: the spec gives no device. Safe (notes/assumptions/4.md). -/
  | deviceAccess (addr : Addr)
  deriving DecidableEq, Repr

/-- The state after reset (10_state.md R48). FREQ, the arena, CODE and the latched state are unspecified there: the
values named here are a DESIGN CHOICE (notes/assumptions/6.md to 9.md). Nothing is in memory, no input waits, and the
platform has REG_BASE 0, no failing access and no device (notes/assumptions/3.md to 5.md). -/
def State.reset : State where
  eng := .idle
  lcmd := 0
  larg0 := 0
  larg1 := 0
  larg2 := 0
  larg3 := 0
  done := false
  treeValid := false
  codesValid := false
  cmdLost := false
  err := 0
  ie := false
  arg0 := 0
  arg1 := 0
  arg2 := 0
  arg3 := 0
  result0 := 0
  result1 := 0
  errPos := 0
  errData := 0
  freq := Vector.replicate 256 0
  fw := Vector.replicate 256 false
  arena := ⟨Vector.replicate 511 (.leaf 0 0), 0, 0⟩
  code := Vector.replicate 256 ⟨0, 0⟩
  mem := []
  platform := ⟨0, [], []⟩
  inputs := []
  response := .none
  unobserved := []
  freeCount := 0

end Sys2Proof.Machine
end

