-- ==== Sys2Proof/Machine/Memory.lean ====
section
/-! DEFINITION. One byte of the shared memory read or written (20_memory.md R60, R62), in canonical form, and the
platform's bus_error (R64). -/

namespace Sys2Proof.Machine

/-- What an address not listed reads as. DESIGN CHOICE, unsafe (notes/assumptions/3.md). -/
def Memory.unlisted : Byte := 0x00#8

/-- The canonical form: addresses strictly rising and below 2^32, no entry equal to what an unlisted address reads as. -/
abbrev Memory.wf (m : Memory) : Prop :=
  m.Pairwise (fun c d => c.1 < d.1) ∧ ∀ c ∈ m, c.1 < 2 ^ 32 ∧ c.2 ≠ Memory.unlisted

/-- The byte at a key. -/
def Memory.readKey : Memory → Nat → Byte
  | [], _ => Memory.unlisted
  | (k, v) :: rest, a => if k = a then v else Memory.readKey rest a

/-- Store a byte at a key, keeping the canonical form: the value an unlisted address reads as removes the entry. -/
def Memory.writeKey : Memory → Nat → Byte → Memory
  | [], a, v => if v = Memory.unlisted then [] else [(a, v)]
  | (k, w) :: rest, a, v =>
    if a < k then
      if v = Memory.unlisted then (k, w) :: rest else (a, v) :: (k, w) :: rest
    else if a = k then
      if v = Memory.unlisted then rest else (k, v) :: rest
    else (k, w) :: Memory.writeKey rest a v

/-- The byte at an address (20_memory.md R60). -/
def Memory.read (m : Memory) (a : Addr) : Byte := Memory.readKey m a.toNat

/-- Store a byte at an address (20_memory.md R60). -/
def Memory.write (m : Memory) (a : Addr) (v : Byte) : Memory := Memory.writeKey m a.toNat v

/-- Whether an address lies in a region (20_memory.md R66). -/
def Region.contains (r : Region) (a : Addr) : Bool :=
  decide (r.base.toNat ≤ a.toNat) && decide (a.toNat < r.base.toNat + r.len)

/-- Whether an error region answers an access with a bus error. -/
def ErrorRegion.hits (r : ErrorRegion) (a : Addr) (kind : AccessKind) : Bool := r.kind == kind && r.region.contains a

/-- bus_error(addr, kind), which engine accesses the platform answers with an error (20_memory.md R64). -/
def Platform.busError (p : Platform) (a : Addr) (kind : AccessKind) : Bool :=
  p.busErrors.any (fun r => r.hits a kind)

/-- Whether an address belongs to a device, and so is no ordinary memory (20_memory.md R65). -/
def Platform.isDevice (p : Platform) (a : Addr) : Bool := p.devices.any (fun r => r.contains a)

end Sys2Proof.Machine
end

