-- ==== Sys2Proof/Machine/Operands.lean ====
section
/-! DEFINITION. Operand forms: addresses and regions (20_memory.md R66, R67), sizes (00_scope.md R11, R12), the
little-endian frequency word (20_memory.md R68) and bits inside a byte (00_scope.md R10). -/

namespace Sys2Proof.Machine

/-- ceil8(n), the bytes that hold n bits (00_scope.md R11). -/
def ceil8 (n : Nat) : Nat := (n + 7) / 8

/-- The address of byte `k` of a region. No legal region passes 0xFFFFFFFF (20_memory.md R66), so no engine access
wraps; the bytes of a host statement go on at 0x00000000 (notes/assumptions/22.md). -/
def addrAt (base : Addr) (k : Nat) : Addr := base + BitVec.ofNat 32 k

/-- A non-empty region wraps when base + len > 2^32; the sum is exact (20_memory.md R66). -/
def Region.wraps (r : Region) : Bool := decide (0 < r.len) && decide (2 ^ 32 < r.base.toNat + r.len)

/-- Whether two non-empty regions overlap, with exact sums (20_memory.md R67). -/
def Region.overlaps (r t : Region) : Bool :=
  decide (0 < r.len) && decide (0 < t.len) &&
    decide (r.base.toNat < t.base.toNat + t.len) && decide (t.base.toNat < r.base.toNat + r.len)

/-- The source region of a command, from its latched operands (30_encoding.md R91; the command's own rule gives the
length); empty for a command that reads no memory. -/
def sourceRegion (i : Instr) (s : State) : Region :=
  match i with
  | .clrfreq => ⟨0, 0⟩
  | .setfreq _ => ⟨0, 0⟩
  | .ldfreq => ⟨s.larg0, 1024⟩
  | .build => ⟨0, 0⟩
  | .gencodes => ⟨0, 0⟩
  | .rdcode _ => ⟨0, 0⟩
  | .encode => ⟨s.larg0, s.larg1.toNat⟩
  | .decode => ⟨s.larg0, ceil8 s.larg1.toNat⟩
  | .save => ⟨0, 0⟩
  | .load => ⟨s.larg0, s.larg1.toNat⟩

/-- The destination region of a command (30_encoding.md R91); empty for a command that writes no memory. -/
def destRegion (i : Instr) (s : State) : Region :=
  match i with
  | .clrfreq => ⟨0, 0⟩
  | .setfreq _ => ⟨0, 0⟩
  | .ldfreq => ⟨0, 0⟩
  | .build => ⟨0, 0⟩
  | .gencodes => ⟨0, 0⟩
  | .rdcode _ => ⟨s.larg2, 32⟩
  | .encode => ⟨s.larg2, s.larg3.toNat⟩
  | .decode => ⟨s.larg2, s.larg3.toNat⟩
  | .save => ⟨s.larg2, s.larg3.toNat⟩
  | .load => ⟨0, 0⟩

/-- The regions of a command, from its latched operands. -/
def commandRegions (i : Instr) (s : State) : CommandRegions := ⟨sourceRegion i s, destRegion i s⟩

/-- The regions of the latched command; an illegal word names none. -/
def State.latchedRegions (s : State) : List CommandRegions :=
  match decode s.lcmd with
  | .error _ => []
  | .ok i => [commandRegions i s]

/-- Whether a region maps a device, and so is no ordinary memory (20_memory.md R65). -/
def Platform.mapsDevice (p : Platform) (r : Region) : Bool := p.devices.any (fun d => r.overlaps d)

/-- A frequency word, least significant byte first (20_memory.md R68). -/
def littleEndian (t0 t1 t2 t3 : Byte) : Word := t3 ++ t2 ++ t1 ++ t0

/-- Bit `b` at stream position `j` of a byte: position 0 is bit 7 (00_scope.md R10). -/
def bitAtPosition (b : Bool) (j : Nat) : Byte := (BitVec.ofBool b).setWidth 8 <<< (7 - j)

/-- The byte whose stream position `j` holds `f j` (00_scope.md R10). -/
def byteOfPositions (f : Nat → Bool) : Byte :=
  (List.range 8).foldl (fun acc j => acc ||| bitAtPosition (f j) j) 0#8

/-- Stream position `j` of a byte, bit 7 - j (00_scope.md R10). -/
def positionBit (v : Byte) (j : Nat) : Bool := v.getLsbD (7 - j)

/-- FREQ[s] (10_state.md R37). -/
def freqOf (freq : Vector Word 256) (s : Sym) : Word := freq[s.toNat]'(s.isLt)

/-- CODE[s] (10_state.md R43). -/
def codeOf (code : Vector CodeEntry 256) (s : Sym) : CodeEntry := code[s.toNat]'(s.isLt)

/-- The number whose bit j is bit j of a path. -/
def natOfPath : List Bool → Nat
  | [] => 0
  | b :: p => b.toNat + 2 * natOfPath p

/-- The entry of a code c_0 … c_{L-1} (10_state.md R43): positions L and above are 0. -/
def CodeEntry.ofPath (p : List Bool) : CodeEntry := ⟨BitVec.ofNat 8 p.length, BitVec.ofNat 255 (natOfPath p)⟩

/-- The bits c_0 … c_{len-1} of an entry (10_state.md R43). -/
def CodeEntry.path (e : CodeEntry) : List Bool := (List.range e.len.toNat).map (fun j => e.bits.getLsbD j)

end Sys2Proof.Machine
end

