-- ==== Sys2Proof/Machine/Flags.lean ====
section
/-! DEFINITION. The words software sees: STATUS (10_state.md R25), INFO (R36), CTRL (R32), and the interrupt output
(60_exceptions.md R240). -/

namespace Sys2Proof.Machine

/-- STATUS.BUSY, 1 while ENG = BUSY (10_state.md R26). -/
def State.busyBit (s : State) : Bool := s.eng == .busy

/-- STATUS (10_state.md R25): BUSY bit 0, DONE 1, TREE_VALID 2, CODES_VALID 3, CMDLOST 4, ERR 11:8, the rest 0. -/
def State.statusWord (s : State) : Word :=
  0#20 ++ s.err ++ 0#3 ++ BitVec.ofBool s.cmdLost ++ BitVec.ofBool s.codesValid ++ BitVec.ofBool s.treeValid ++
    BitVec.ofBool s.done ++ BitVec.ofBool s.busyBit

/-- A host write of STATUS: bit 1 clears DONE, bit 4 clears CMDLOST, every other bit is ignored (10_state.md R25). -/
def State.writeStatus (s : State) (w : Word) : State :=
  { s with done := s.done && !w.getLsbD 1, cmdLost := s.cmdLost && !w.getLsbD 4 }

/-- CTRL: IE in bit 0, the rest 0 (10_state.md R32). -/
def State.ctrlWord (s : State) : Word := 0#31 ++ BitVec.ofBool s.ie

/-- MAXLEN, the longest code length of a table (10_state.md R36, R44). -/
def maxLen (code : Vector CodeEntry 256) : BitVec 8 :=
  BitVec.ofNat 8 (code.toList.foldl (fun m e => max m e.len.toNat) 0)

/-- INFO (10_state.md R36): NLEAVES_OUT in bits 8:0, MAXLEN in bits 23:16, the rest 0. -/
def State.infoWord (s : State) : Word :=
  0#8 ++ (if s.codesValid then maxLen s.code else 0#8) ++ 0#7 ++ (if s.treeValid then s.arena.nleaves else 0#9)

/-- IRQ = CTRL.IE AND STATUS.DONE (60_exceptions.md R240). -/
def State.irq (s : State) : Bool := s.ie && s.done

end Sys2Proof.Machine
end

