-- ==== Sys2Proof/Machine/Ops.lean ====
section
/-! DEFINITION. The shared operations of the commands: the errors and the two completions (60_exceptions.md R230 to
R236), issue (30_encoding.md R86), the engine's memory port (20_memory.md R62 to R64), the region checks (R66, R67) and
the writes of the internal memories. -/

namespace Sys2Proof.Machine

/-- The eleven errors (60_exceptions.md R230). -/
inductive ErrorKind where
  | emptyAlphabet
  | unknownSymbol
  | malformedTree
  | corruptStream
  | truncatedStream
  | ioFailure
  | illegalCommand
  | noTree
  | noCodes
  | outputOverflow
  | badRegion
  deriving DecidableEq, Repr

/-- The code written to STATUS.ERR (60_exceptions.md R230). -/
def ErrorKind.code : ErrorKind → BitVec 4
  | .emptyAlphabet => 1#4
  | .unknownSymbol => 2#4
  | .malformedTree => 3#4
  | .corruptStream => 4#4
  | .truncatedStream => 5#4
  | .ioFailure => 6#4
  | .illegalCommand => 7#4
  | .noTree => 8#4
  | .noCodes => 9#4
  | .outputOverflow => 10#4
  | .badRegion => 11#4

/-- A raised error with its ERRPOS and ERRDATA; ERRDATA uses bits 10:0 (10_state.md R35, 60_exceptions.md R231). -/
structure CmdError where
  kind : ErrorKind
  pos : Word
  data : BitVec 11
  deriving DecidableEq, Repr

/-- The end of a command: its latched state becomes "any value" (93_implementation_defined.md U5), so free values, and its
regions stay closed to the host until it observes the completion (20_memory.md R71(d)). -/
def State.discardLatched (s : State) : State :=
  { s with
    lcmd := Config.freeWord s.freeCount, larg0 := Config.freeWord (s.freeCount + 1),
    larg1 := Config.freeWord (s.freeCount + 2), larg2 := Config.freeWord (s.freeCount + 3),
    larg3 := Config.freeWord (s.freeCount + 4), freeCount := s.freeCount + 5,
    unobserved := s.latchedRegions ++ s.unobserved }

/-- `complete(r0, r1)`, the successful completion (60_exceptions.md R235); the command's other updates are made on the
state it is given. -/
def State.complete (s : State) (r0 r1 : Word) : State :=
  { s.discardLatched with result0 := r0, result1 := r1, err := 0#4, eng := .idle, done := true }

/-- `raise E(pos, data)`, the error completion: HUFFCORE's only form of trap entry; "the command's latched operands are
discarded" (60_exceptions.md R236). -/
def State.raiseError (s : State) (e : CmdError) : State :=
  { s.discardLatched with
    errPos := e.pos, errData := e.data.setWidth 32, err := e.kind.code, eng := .idle, done := true }

/-- Issue of command word `w`, one indivisible step (30_encoding.md R86). -/
def State.issue (s : State) (w : Word) : State :=
  { s with
    lcmd := w, larg0 := s.arg0, larg1 := s.arg1, larg2 := s.arg2, larg3 := s.arg3, eng := .busy, done := false,
    err := 0#4, result0 := 0#32, result1 := 0#32, errPos := 0#32, errData := 0#32 }

/-- `MemRead(addr, 1)` (00_scope.md R11, 20_memory.md R64). -/
def engineRead (s : State) (a : Addr) : Except CmdError Byte :=
  if s.platform.busError a .read then .error ⟨.ioFailure, a, 0#11⟩ else .ok (s.mem.read a)

/-- `MemWrite(addr, 1, v)` (00_scope.md R11, 20_memory.md R64): on a bus error the byte at addr takes a free value
(93_implementation_defined.md U4). -/
def engineWrite (s : State) (a : Addr) (v : Byte) : State × Option CmdError :=
  if s.platform.busError a .write then
    ({ s with mem := s.mem.write a (Config.freeByte s.freeCount), freeCount := s.freeCount + 1 },
      some ⟨.ioFailure, a, 1#11⟩)
  else ({ s with mem := s.mem.write a v }, none)

/-- Write bytes to a region in ascending address order, from byte `k` on, up to the first failing write
(20_memory.md R63). -/
def writeBytes (base : Addr) : Nat → List Byte → State → State × Option CmdError
  | _, [], s => (s, none)
  | k, v :: rest, s =>
    match engineWrite s (addrAt base k) v with
    | (t, some e) => (t, some e)
    | (t, none) => writeBytes base (k + 1) rest t

/-- Write a destination region and complete, or raise IoFailure at the first failing write. -/
def writeAndComplete (base : Addr) (bytes : List Byte) (r0 r1 : Word) (s : State) : State :=
  match writeBytes base 0 bytes s with
  | (t, none) => t.complete r0 r1
  | (t, some e) => t.raiseError e

/-- BadRegion of a wrapping source region, data 0 (20_memory.md R66). -/
def checkSource (r : Region) : Except CmdError Unit :=
  if r.wraps then .error ⟨.badRegion, r.base, 0#11⟩ else .ok ()

/-- BadRegion of a wrapping destination region, data 1 (20_memory.md R66). -/
def checkDest (r : Region) : Except CmdError Unit :=
  if r.wraps then .error ⟨.badRegion, r.base, 1#11⟩ else .ok ()

/-- The checks of a command with both regions: source wrap, destination wrap, overlap (20_memory.md R66, R67). -/
def checkRegions (src dst : Region) : Except CmdError Unit :=
  match checkSource src with
  | .error e => .error e
  | .ok _ =>
    match checkDest dst with
    | .error e => .error e
    | .ok _ => if src.overlaps dst then .error ⟨.badRegion, dst.base, 2#11⟩ else .ok ()

/-- `FREQ[s] <- f; FW[s] <- 1` (10_state.md R37, R38). -/
def State.writeFreq (s : State) (sym : Sym) (f : Word) : State :=
  { s with freq := s.freq.set sym.toNat f sym.isLt, fw := s.fw.set sym.toNat true sym.isLt }

/-- Every entry of FREQ written at once, every FW set (10_state.md R37, R38). -/
def State.writeFreqTable (s : State) (table : Vector Word 256) : State :=
  { s with freq := table, fw := Vector.replicate 256 true }

/-- The arena before a BUILD or LOAD writes its nodes: entries not reachable from ROOT hold any value
(93_implementation_defined.md U2), so free values. -/
def State.freeNodes (s : State) : Vector Node 511 := Vector.ofFn (Config.freeNode s.freeCount)

/-- CODE while CODES_VALID = 0: any value (93_implementation_defined.md U2), so free values. -/
def State.freeCodes (s : State) : Vector CodeEntry 256 := Vector.ofFn (Config.freeCode s.freeCount)

/-- The tree made by a successful BUILD or LOAD: TREE_VALID = 1, CODES_VALID = 0 (10_state.md R28, R29). -/
def State.installTree (s : State) (a : Arena) : State :=
  { s with arena := a, treeValid := true, codesValid := false, code := s.freeCodes, freeCount := s.freeCount + 1 }

/-- A failed BUILD or LOAD: TREE_VALID = CODES_VALID = 0, and the arena and CODE are unspecified, free values
(60_exceptions.md R237, 93_implementation_defined.md U2). -/
def State.dropTree (s : State) : State :=
  { s with
    arena := Config.freeArena s.freeCount, treeValid := false, codesValid := false, code := s.freeCodes,
    freeCount := s.freeCount + 1 }

/-- The code table made by a successful GENCODES (10_state.md R29). -/
def State.installCodes (s : State) (code : Vector CodeEntry 256) : State :=
  { s with code := code, codesValid := true }

end Sys2Proof.Machine
end

