-- ==== Sys2Proof/Machine/Checks.lean ====
section
/-! DEFINITION. The checks a command makes before any memory access, in their order: checks 2 to 4 of 60_exceptions.md
R234. -/

namespace Sys2Proof.Machine

/-- "The first its checks raise" (60_exceptions.md R234). -/
def firstError : List (Except CmdError Unit) → Except CmdError Unit
  | [] => .ok ()
  | .error e :: _ => .error e
  | .ok _ :: rest => firstError rest

/-- NoTree(0, 0) when TREE_VALID = 0 (60_exceptions.md R231). -/
def checkTree (s : State) : Except CmdError Unit := if s.treeValid then .ok () else .error ⟨.noTree, 0#32, 0#11⟩

/-- NoCodes(0, 0) when CODES_VALID = 0 (60_exceptions.md R231). -/
def checkCodes (s : State) : Except CmdError Unit := if s.codesValid then .ok () else .error ⟨.noCodes, 0#32, 0#11⟩

/-- OutputOverflow(size, 0) when an output whose size is known in advance does not fit (60_exceptions.md R231). -/
def checkRoom (cap : Word) (size : Nat) : Except CmdError Unit :=
  if cap.toNat < size then .error ⟨.outputOverflow, BitVec.ofNat 32 size, 0#11⟩ else .ok ()

/-- The size SAVE needs, 3 * NLEAVES - 1 (43_tree_codec.md R161). -/
def State.saveSize (s : State) : Nat := 3 * s.arena.nleaves.toNat - 1

/-- A command's precondition, region and size checks, in order (60_exceptions.md R234, checks 2 to 4). -/
def checksOf (i : Instr) (s : State) : List (Except CmdError Unit) :=
  match i with
  | .clrfreq => []
  | .setfreq _ => []
  | .ldfreq => [checkSource (sourceRegion .ldfreq s)]
  | .build => []
  | .gencodes => [checkTree s]
  | .rdcode sym => [checkCodes s, checkDest (destRegion (.rdcode sym) s), checkRoom s.larg3 32]
  | .encode => [checkCodes s, checkRegions (sourceRegion .encode s) (destRegion .encode s)]
  | .decode => [checkTree s, checkRegions (sourceRegion .decode s) (destRegion .decode s)]
  | .save => [checkTree s, checkDest (destRegion .save s), checkRoom s.larg3 s.saveSize]
  | .load => [checkSource (sourceRegion .load s)]

/-- What a command's checks before any memory access come to. -/
def commandChecks (i : Instr) (s : State) : Except CmdError Unit := firstError (checksOf i s)

end Sys2Proof.Machine
end

