-- ==== Sys2Proof/Machine/HuffTree.lean ====
section
/-! DEFINITION. The tree an arena holds (10_state.md R41), as a recursive type, with its leaves' paths (42_code_generator.md
R140) and its preorder (43_tree_codec.md R160). -/

namespace Sys2Proof.Machine

/-- The shape, child order and leaf symbols of a tree: all that any command but BUILD observes (10_state.md R42). -/
inductive HuffTree where
  | leaf (sym : Sym)
  | node (left right : HuffTree)
  deriving DecidableEq, Repr

/-- The tree below an arena index, to a depth of `fuel` nodes; `none` when it goes deeper. -/
def treeBelow (node : Vector Node 511) : Nat → NodeIdx → Option HuffTree
  | 0, _ => none
  | fuel + 1, i =>
    match node[i] with
    | .leaf sym _ => some (.leaf sym)
    | .internal l r _ =>
      match treeBelow node fuel l, treeBelow node fuel r with
      | some tl, some tr => some (.node tl tr)
      | _, _ => none

/-- The tree reachable from ROOT; NODE_CAP nodes bound its depth (10_state.md R41). -/
def Arena.tree (a : Arena) : Option HuffTree := treeBelow a.node Config.nodeCap a.root

/-- The leaf symbols, left to right. -/
def HuffTree.symbols : HuffTree → List Sym
  | .leaf sym => [sym]
  | .node l r => l.symbols ++ r.symbols

/-- The leaves with their paths, left to right, below a node whose own path is `p`: 0 is left, 1 is right
(42_code_generator.md R140). -/
def HuffTree.leafPaths : HuffTree → List Bool → List (Sym × List Bool)
  | .leaf sym, p => [(sym, p)]
  | .node l r, p => l.leafPaths (p ++ [false]) ++ r.leafPaths (p ++ [true])

/-- The codes of a tree: its leaves' paths, and "0" for a single leaf (42_code_generator.md R142). -/
def HuffTree.codes : HuffTree → List (Sym × List Bool)
  | .leaf sym => [(sym, [false])]
  | .node l r => (HuffTree.node l r).leafPaths []

/-- The serialized tree: tag 0x00 then both subtrees, or tag 0x01 then the symbol (43_tree_codec.md R160). -/
def HuffTree.serialize : HuffTree → List Byte
  | .leaf sym => [0x01#8, sym]
  | .node l r => 0x00#8 :: (l.serialize ++ r.serialize)

/-- The depth of the deepest leaf; the root is at depth 0. -/
def HuffTree.depth : HuffTree → Nat
  | .leaf _ => 0
  | .node l r => max l.depth r.depth + 1

end Sys2Proof.Machine
end

