-- ==== Sys2Proof/Machine/CodeGenerator.lean ====
section
/-! DEFINITION. GENCODES and RDCODE (42_code_generator.md). -/

namespace Sys2Proof.Machine

open Host

/-- Record the codes of a list of leaves in a table, in order (42_code_generator.md R141). -/
def recordCodes : List (Sym × List Bool) → Vector CodeEntry 256 → Vector CodeEntry 256
  | [], table => table
  | (sym, p) :: rest, table => recordCodes rest (table.set sym.toNat (CodeEntry.ofPath p) sym.isLt)

/-- The code table of a tree (42_code_generator.md R142): every symbol of no leaf has length 0. -/
def codeTable (t : HuffTree) : Vector CodeEntry 256 := recordCodes t.codes (Vector.replicate 256 ⟨0#8, 0#255⟩)

/-- GENCODES (42_code_generator.md R141). -/
def execGencodes (s : State) : Outcome State Fault Refusal :=
  match commandChecks .gencodes s with
  | .error e => .next (s.raiseError e)
  | .ok _ =>
    match s.arena.tree with
    | none => .fault .arenaHoldsNoTree
    | some t =>
      .next ((s.installCodes (codeTable t)).complete (s.arena.nleaves.setWidth 32) ((maxLen (codeTable t)).setWidth 32))

/-- Byte `k` of the code image of an entry: bits past the code are 0 (42_code_generator.md R144). -/
def codeImageByte (e : CodeEntry) (k : Nat) : Byte :=
  byteOfPositions (fun j => decide (8 * k + j < e.len.toNat) && e.bits.getLsbD (8 * k + j))

/-- The 32-byte code image (42_code_generator.md R144). -/
def codeImage (e : CodeEntry) : List Byte := (List.range 32).map (codeImageByte e)

/-- RDCODE sym (42_code_generator.md R144). -/
def execRdcode (sym : Sym) (s : State) : Outcome State Fault Refusal :=
  match commandChecks (.rdcode sym) s with
  | .error e => .next (s.raiseError e)
  | .ok _ => .next (writeAndComplete s.larg2 (codeImage (codeOf s.code sym)) ((codeOf s.code sym).len.setWidth 32) 0#32 s)

end Sys2Proof.Machine
end

