-- ==== Sys2Proof/Machine/Decoder.lean ====
section
/-! DEFINITION. DECODE, the BitUnpacker and the Decoder's state machine (45_decoder_unpacker.md). -/

namespace Sys2Proof.Machine

open Host

/-- `unpack(k)`: bit b_k of the stream at `src` (45_decoder_unpacker.md R210). -/
def unpackBit (s : State) (src : Addr) (k : Nat) : Except CmdError Bool :=
  match engineRead s (addrAt src (k / 8)) with
  | .error e => .error e
  | .ok cur => .ok (positionBit cur (k % 8))

/-- The Decoder's position (45_decoder_unpacker.md R211): at the root, or at an internal node below it, with its depth
and its two subtrees. -/
inductive DecPos where
  | atRoot
  | descending (depth : Nat) (left right : HuffTree)
  deriving DecidableEq, Repr

/-- Move to a child at depth `d`: a leaf emits its symbol and returns to the root (45_decoder_unpacker.md R212). -/
def enterChild (d : Nat) : HuffTree → DecPos × Option Sym
  | .leaf sym => (.atRoot, some sym)
  | .node l r => (.descending d l r, none)

/-- The transition `step(pos, bit)` in the tree `t` (45_decoder_unpacker.md R212); `none` is the move through the absent
child of a single-leaf tree. -/
def decodeStep (t : HuffTree) (pos : DecPos) (b : Bool) : Option (DecPos × Option Sym) :=
  match t with
  | .leaf sym => if b then none else some (.atRoot, some sym)
  | .node l r =>
    match pos with
    | .atRoot => some (enterChild 1 (if b then r else l))
    | .descending d l' r' => some (enterChild (d + 1) (if b then r' else l'))

/-- The walk over `n` bits from bit index `k`, with the symbols emitted so far: pass 1 of DECODE
(45_decoder_unpacker.md R213). Pass 2 walks the same bits and writes the same symbols (R215). -/
def decodeWalk (s : State) (t : HuffTree) (cap : Nat) : Nat → Nat → DecPos → List Sym → Except CmdError (DecPos × List Sym)
  | 0, _, pos, out => .ok (pos, out)
  | n + 1, k, pos, out =>
    match unpackBit s s.larg0 k with
    | .error e => .error e
    | .ok b =>
      match decodeStep t pos b with
      | none => .error ⟨.corruptStream, BitVec.ofNat 32 k, 1#11⟩
      | some (pos', none) => decodeWalk s t cap n (k + 1) pos' out
      | some (pos', some sym) =>
        if out.length = cap then .error ⟨.outputOverflow, BitVec.ofNat 32 k, 0#11⟩
        else decodeWalk s t cap n (k + 1) pos' (out ++ [sym])

/-- Pass 1 of DECODE: the walk and the end of the stream (45_decoder_unpacker.md R213). -/
def decodeSymbols (s : State) (t : HuffTree) : Except CmdError (List Sym) :=
  match decodeWalk s t s.larg3.toNat s.larg1.toNat 0 .atRoot [] with
  | .error e => .error e
  | .ok (.atRoot, out) => .ok out
  | .ok (.descending d _ _, _) => .error ⟨.truncatedStream, s.larg1, BitVec.ofNat 11 d⟩

/-- DECODE (45_decoder_unpacker.md R213). -/
def execDecode (s : State) : Outcome State Fault Refusal :=
  match commandChecks .decode s with
  | .error e => .next (s.raiseError e)
  | .ok _ =>
    match s.arena.tree with
    | none => .fault .arenaHoldsNoTree
    | some t =>
      match decodeSymbols s t with
      | .error e => .next (s.raiseError e)
      | .ok out =>
        .next (writeAndComplete s.larg2 out (BitVec.ofNat 32 out.length) (BitVec.ofNat 32 (ceil8 s.larg1.toNat)) s)

end Sys2Proof.Machine
end

