-- ==== Sys2Proof/Machine/Encoder.lean ====
section
/-! DEFINITION. ENCODE and the BitPacker (44_encoder_packer.md). -/

namespace Sys2Proof.Machine

open Host

/-- The BitPacker: the accumulator, the fill count, and the bytes written so far (44_encoder_packer.md R192). -/
structure Packer where
  acc : Byte
  fill : Nat
  out : List Byte
  deriving DecidableEq, Repr

/-- `put(bit)` (44_encoder_packer.md R192). -/
def Packer.put (p : Packer) (b : Bool) : Packer :=
  let acc := p.acc ||| bitAtPosition b p.fill
  if p.fill + 1 = 8 then ⟨0#8, 0, p.out ++ [acc]⟩ else ⟨acc, p.fill + 1, p.out⟩

/-- `flush()`: the partial last byte, zero padded (44_encoder_packer.md R192). -/
def Packer.flush (p : Packer) : List Byte := if 0 < p.fill then p.out ++ [p.acc] else p.out

/-- The packed stream of a bit sequence (44_encoder_packer.md R190, R192). -/
def packBits (bits : List Bool) : List Byte := (bits.foldl Packer.put ⟨0#8, 0, []⟩).flush

/-- limit = min(8 * cap, 2^32 - 1) (44_encoder_packer.md R193). -/
def encodeLimit (cap : Nat) : Nat := min (8 * cap) (2 ^ 32 - 1)

/-- Pass 1 of ENCODE over the `n` bytes from offset `i`, with running total `total`: every symbol and the output size
are checked, nothing is written (44_encoder_packer.md R193). -/
def encodeCheck (s : State) (limit : Nat) : Nat → Nat → Nat → Except CmdError Nat
  | 0, _, total => .ok total
  | n + 1, i, total =>
    match engineRead s (addrAt s.larg0 i) with
    | .error e => .error e
    | .ok b =>
      let len := (codeOf s.code b).len.toNat
      if len = 0 then .error ⟨.unknownSymbol, BitVec.ofNat 32 i, b.setWidth 11⟩
      else if limit < total + len then .error ⟨.outputOverflow, BitVec.ofNat 32 i, 0#11⟩
      else encodeCheck s limit n (i + 1) (total + len)

/-- Pass 2 of ENCODE: the codes of the `n` bytes from offset `i`, in order (44_encoder_packer.md R190, R193). -/
def encodeBits (s : State) : Nat → Nat → Except CmdError (List Bool)
  | 0, _ => .ok []
  | n + 1, i =>
    match engineRead s (addrAt s.larg0 i) with
    | .error e => .error e
    | .ok b =>
      match encodeBits s n (i + 1) with
      | .error e => .error e
      | .ok bits => .ok ((codeOf s.code b).path ++ bits)

/-- Pass 1 of ENCODE, which answers NBITS (44_encoder_packer.md R193). -/
def encodeTotal (s : State) : Except CmdError Nat := encodeCheck s (encodeLimit s.larg3.toNat) s.larg1.toNat 0 0

/-- ENCODE (44_encoder_packer.md R193). -/
def execEncode (s : State) : Outcome State Fault Refusal :=
  match commandChecks .encode s with
  | .error e => .next (s.raiseError e)
  | .ok _ =>
    match encodeTotal s with
    | .error e => .next (s.raiseError e)
    | .ok total =>
      match encodeBits s s.larg1.toNat 0 with
      | .error e => .next (s.raiseError e)
      | .ok bits =>
        .next (writeAndComplete s.larg2 (packBits bits) (BitVec.ofNat 32 (packBits bits).length)
          (BitVec.ofNat 32 total) s)

end Sys2Proof.Machine
end

