-- ==== Sys2Proof/Machine/Frequency.lean ====
section
/-! DEFINITION. The frequency table commands: CLRFREQ, SETFREQ, LDFREQ (40_frequency_table.md). -/

namespace Sys2Proof.Machine

open Host

/-- CLRFREQ (40_frequency_table.md R100). -/
def execClrfreq (s : State) : Outcome State Fault Refusal :=
  .next ((s.writeFreqTable (Vector.replicate 256 0#32)).complete 0#32 0#32)

/-- SETFREQ sym: the value is LARG0 (40_frequency_table.md R101). -/
def execSetfreq (sym : Sym) (s : State) : Outcome State Fault Refusal :=
  .next ((s.writeFreq sym s.larg0).complete 0#32 0#32)

/-- One frequency word: four reads, ascending (40_frequency_table.md R102). -/
def readFreqWord (s : State) (a : Addr) : Except CmdError Word :=
  match engineRead s a with
  | .error e => .error e
  | .ok t0 =>
    match engineRead s (addrAt a 1) with
    | .error e => .error e
    | .ok t1 =>
      match engineRead s (addrAt a 2) with
      | .error e => .error e
      | .ok t2 =>
        match engineRead s (addrAt a 3) with
        | .error e => .error e
        | .ok t3 => .ok (littleEndian t0 t1 t2 t3)

/-- `n` frequency words, word k at base + 4k, from word `k` on. -/
def readFreqWords (s : State) (base : Addr) : Nat → Nat → Except CmdError (List Word)
  | 0, _ => .ok []
  | n + 1, k =>
    match readFreqWord s (addrAt base (4 * k)) with
    | .error e => .error e
    | .ok w =>
      match readFreqWords s base n (k + 1) with
      | .error e => .error e
      | .ok ws => .ok (w :: ws)

/-- The table of 256 words. -/
def freqTableOf (ws : List Word) : Vector Word 256 := Vector.ofFn (fun i => ws.getD i.val 0#32)

/-- LDFREQ: the table is written only after all 1024 bytes were read (40_frequency_table.md R102). -/
def execLdfreq (s : State) : Outcome State Fault Refusal :=
  match commandChecks .ldfreq s with
  | .error e => .next (s.raiseError e)
  | .ok _ =>
    match readFreqWords s s.larg0 Config.nsym 0 with
    | .error e => .next (s.raiseError e)
    | .ok ws => .next ((s.writeFreqTable (freqTableOf ws)).complete 0#32 0#32)

end Sys2Proof.Machine
end

