-- ==== Sys2Proof/Machine/TreeBuilder.lean ====
section
/-! DEFINITION. BUILD, the greedy minimum-frequency merge (41_tree_builder.md). -/

namespace Sys2Proof.Machine

open Host

/-- A node's frequency (10_state.md R39). -/
def Node.freq : Node → NodeFreq
  | .leaf _ f => f
  | .internal _ _ f => f

/-- The order of keys (NODE[i].freq, i), lexicographic (41_tree_builder.md R121). -/
def keyLess (node : Vector Node 511) (i j : NodeIdx) : Bool :=
  decide (node[i].freq < node[j].freq) || (node[i].freq == node[j].freq && decide (i < j))

/-- The node of the pool with the least key (41_tree_builder.md R122). -/
def leastKey (node : Vector Node 511) : List NodeIdx → Option NodeIdx
  | [] => none
  | i :: rest =>
    match leastKey node rest with
    | none => some i
    | some j => if keyLess node j i then some j else some i

/-- The transient state of BUILD: the arena so far, the pool of nodes not yet merged, and the next free index
(10_state.md R46, 41_tree_builder.md R122). -/
structure Builder where
  node : Vector Node 511
  pool : List NodeIdx
  next : Nat
  deriving DecidableEq, Repr

/-- One merge step (41_tree_builder.md R122): the first extracted is the left child. -/
def Builder.merge (b : Builder) : Builder :=
  match leastKey b.node b.pool with
  | none => b
  | some x =>
    match leastKey b.node (b.pool.erase x) with
    | none => b
    | some y =>
      { node := b.node.setIfInBounds b.next (.internal x y (b.node[x].freq + b.node[y].freq)),
        pool := (b.pool.erase x).erase y ++ [Fin.ofNat 511 b.next],
        next := b.next + 1 }

/-- `n` merge steps; a tree of n leaves takes n - 1 (41_tree_builder.md R124). -/
def Builder.mergeTimes : Nat → Builder → Builder
  | 0, b => b
  | n + 1, b => Builder.mergeTimes n b.merge

/-- The symbols of the alphabet, ascending (41_tree_builder.md R120). -/
def alphabet (freq : Vector Word 256) : List Sym :=
  ((List.range Config.nsym).map (BitVec.ofNat 8)).filter (fun sym => freqOf freq sym != 0#32)

/-- Place the leaves of the given symbols from index `n` on (41_tree_builder.md R121). -/
def placeLeaves (freq : Vector Word 256) : List Sym → Nat → Vector Node 511 → Vector Node 511
  | [], _, node => node
  | sym :: rest, n, node =>
    placeLeaves freq rest (n + 1) (node.setIfInBounds n (.leaf sym ((freqOf freq sym).setWidth 40)))

/-- The builder before its first merge: the leaves, all of them in the pool (41_tree_builder.md R123). -/
def builderStart (freq : Vector Word 256) (node : Vector Node 511) : Builder where
  node := placeLeaves freq (alphabet freq) 0 node
  pool := (List.range (alphabet freq).length).map (Fin.ofNat 511)
  next := (alphabet freq).length

/-- The arena BUILD makes of a non-empty alphabet: ROOT is the only element left in the pool (41_tree_builder.md R123). -/
def builtArena (freq : Vector Word 256) (node : Vector Node 511) : Arena :=
  let n := (alphabet freq).length
  let b := (builderStart freq node).mergeTimes (n - 1)
  ⟨b.node, b.pool.headD 0, BitVec.ofNat 9 n⟩

/-- Whether every FREQ entry was written since reset (10_state.md R38). -/
def State.freqWritten (s : State) : Bool := s.fw.toList.all id

/-- BUILD (41_tree_builder.md R123). With some FW[s] = 0 it is a fault of the model (70_reset_and_hazards.md R266). -/
def execBuild (s : State) : Outcome State Fault Refusal :=
  if s.freqWritten then
    let n := (alphabet s.freq).length
    if n = 0 then .next (s.dropTree.raiseError ⟨.emptyAlphabet, 0#32, 0#11⟩)
    else .next ((s.installTree (builtArena s.freq s.freeNodes)).complete (BitVec.ofNat 32 n) 0#32)
  else .fault .unwrittenFrequency

end Sys2Proof.Machine
end

