-- ==== Sys2Proof/Machine/TreeCodec.lean ====
section
/-! DEFINITION. SAVE and LOAD (43_tree_codec.md). -/

namespace Sys2Proof.Machine

open Host

/-- SAVE (43_tree_codec.md R161): the bytes are the tree's preorder (R162). -/
def execSave (s : State) : Outcome State Fault Refusal :=
  match commandChecks .save s with
  | .error e => .next (s.raiseError e)
  | .ok _ =>
    match s.arena.tree with
    | none => .fault .arenaHoldsNoTree
    | some t =>
      .next (writeAndComplete s.larg2 t.serialize (BitVec.ofNat 32 s.saveSize) (s.arena.nleaves.setWidth 32) s)

/-- A place a node still has to fill (43_tree_codec.md R167). -/
inductive Slot where
  | root
  | left (parent : NodeIdx)
  | right (parent : NodeIdx)
  deriving DecidableEq, Repr

/-- The transient state of LOAD: the arena so far, the offset, the nodes and leaves read, the symbols seen and the
stack of slots, top first (10_state.md R46, 43_tree_codec.md R167). -/
structure Loader where
  node : Vector Node 511
  off : Nat
  cnt : Nat
  leaves : Nat
  seen : List Sym
  slots : List Slot
  deriving DecidableEq, Repr

/-- Give an internal node a new left child; a leaf has none. -/
def Node.withLeft (k : NodeIdx) : Node → Node
  | .leaf sym f => .leaf sym f
  | .internal _ r f => .internal k r f

/-- Give an internal node a new right child; a leaf has none. -/
def Node.withRight (k : NodeIdx) : Node → Node
  | .leaf sym f => .leaf sym f
  | .internal l _ f => .internal l k f

/-- `fill(slot, k)` (43_tree_codec.md R167). -/
def fillSlot (node : Vector Node 511) (slot : Slot) (k : NodeIdx) : Vector Node 511 :=
  match slot with
  | .root => node
  | .left p => node.set p (node[p].withLeft k)
  | .right p => node.set p (node[p].withRight k)

/-- ERRDATA of MalformedTree, {reason[2:0], byte[7:0]} (43_tree_codec.md R164). -/
def malformedData (reason : BitVec 3) (v : Byte) : BitVec 11 := reason ++ v

/-- MalformedTree at an offset (43_tree_codec.md R164). -/
def malformed (off : Nat) (reason : BitVec 3) (v : Byte) : CmdError :=
  ⟨.malformedTree, BitVec.ofNat 32 off, malformedData reason v⟩

/-- One pass of LOAD's loop after its two checks: the tag, and a leaf's symbol (43_tree_codec.md R167). The children of
a new internal node are open until their slots are filled (notes/assumptions/29.md). -/
def loadNode (s : State) (avail : Nat) (slot : Slot) (rest : List Slot) (ld : Loader) : Except CmdError Loader :=
  match engineRead s (addrAt s.larg0 ld.off) with
  | .error e => .error e
  | .ok tag =>
    let k : NodeIdx := Fin.ofNat 511 ld.cnt
    if tag = 0x00#8 then
      .ok { ld with
        node := fillSlot (ld.node.set k (.internal 0 0 0#40)) slot k,
        off := ld.off + 1, cnt := ld.cnt + 1, slots := .left k :: .right k :: rest }
    else if tag = 0x01#8 then
      if ld.off + 1 = avail then .error (malformed (ld.off + 1) 1#3 0#8)
      else
        match engineRead s (addrAt s.larg0 (ld.off + 1)) with
        | .error e => .error e
        | .ok sym =>
          if sym ∈ ld.seen then .error (malformed (ld.off + 1) 3#3 sym)
          else
            .ok { ld with
              node := fillSlot (ld.node.set k (.leaf sym 0#40)) slot k,
              off := ld.off + 2, cnt := ld.cnt + 1, leaves := ld.leaves + 1, seen := sym :: ld.seen, slots := rest }
    else .error (malformed ld.off 2#3 tag)

/-- LOAD's loop with `room` nodes of the arena left, so cnt = 511 is `room` = 0 (43_tree_codec.md R166, R167). DESIGN
CHOICE: the slot stack is as deep as the pseudocode makes it, up to 512, against the corner case's 256 entries
(notes/assumptions/31.md). -/
def loadLoop (s : State) (avail : Nat) : Nat → Loader → Except CmdError Loader
  | 0, ld =>
    match ld.slots with
    | [] => .ok ld
    | _ :: _ => if ld.off = avail then .error (malformed ld.off 1#3 0#8) else .error (malformed ld.off 4#3 0#8)
  | room + 1, ld =>
    match ld.slots with
    | [] => .ok ld
    | slot :: rest =>
      if ld.off = avail then .error (malformed ld.off 1#3 0#8)
      else
        match loadNode s avail slot rest ld with
        | .error e => .error e
        | .ok ld' => loadLoop s avail room ld'

/-- LOAD's state before its loop (43_tree_codec.md R167). -/
def loaderStart (node : Vector Node 511) : Loader := ⟨node, 0, 0, 0, [], [.root]⟩

/-- LOAD's parse (43_tree_codec.md R163, R167). -/
def parseTree (s : State) : Except CmdError Loader :=
  loadLoop s s.larg1.toNat Config.nodeCap (loaderStart s.freeNodes)

/-- LOAD (43_tree_codec.md R167): nodes in preorder, ROOT = 0, every freq 0 (R168); any error drops the old tree. -/
def execLoad (s : State) : Outcome State Fault Refusal :=
  match commandChecks .load s with
  | .error e => .next (s.dropTree.raiseError e)
  | .ok _ =>
    match parseTree s with
    | .error e => .next (s.dropTree.raiseError e)
    | .ok ld =>
      .next ((s.installTree ⟨ld.node, 0, BitVec.ofNat 9 ld.leaves⟩).complete (BitVec.ofNat 32 ld.off)
        (BitVec.ofNat 32 ld.leaves))

end Sys2Proof.Machine
end

