-- ==== Sys2Proof/Machine/Dispatch.lean ====
section
/-! DEFINITION. One arm per command: from the state at issue to the state at completion (70_reset_and_hazards.md R270). -/

namespace Sys2Proof.Machine

open Host

def exec (i : Instr) (s : State) : Host.Outcome State Fault Refusal :=
  match i with
  | .clrfreq => Sys2Proof.Machine.execClrfreq s
  | .setfreq sym => Sys2Proof.Machine.execSetfreq sym s
  | .ldfreq => Sys2Proof.Machine.execLdfreq s
  | .build => Sys2Proof.Machine.execBuild s
  | .gencodes => Sys2Proof.Machine.execGencodes s
  | .rdcode sym => Sys2Proof.Machine.execRdcode sym s
  | .encode => Sys2Proof.Machine.execEncode s
  | .decode => Sys2Proof.Machine.execDecode s
  | .save => Sys2Proof.Machine.execSave s
  | .load => Sys2Proof.Machine.execLoad s

end Sys2Proof.Machine
end

