-- ==== Sys2Proof/Machine/HostPort.lean ====
section
/-! DEFINITION. The host's accesses to the register block (10_state.md R22 to R36, 30_encoding.md R85) and to the shared
memory (20_memory.md R71(d)), and the reset event (70_reset_and_hazards.md R260, R261). -/

namespace Sys2Proof.Machine

open Host

/-- A 32-bit read at a word-aligned offset of the register block (10_state.md R22, R23); no read changes a register. -/
def State.regRead (s : State) (offset : Nat) : Word :=
  if offset = 0x00 then 0#32
  else if offset = 0x04 then s.statusWord
  else if offset = 0x08 then s.ctrlWord
  else if offset = 0x0C then s.arg0
  else if offset = 0x10 then s.arg1
  else if offset = 0x14 then s.arg2
  else if offset = 0x18 then s.arg3
  else if offset = 0x1C then s.result0
  else if offset = 0x20 then s.result1
  else if offset = 0x24 then s.errPos
  else if offset = 0x28 then s.errData
  else if offset = 0x2C then s.infoWord
  else 0#32

/-- A host write of CMD: an issue while IDLE, a lost command while BUSY (10_state.md R24, 30_encoding.md R85). -/
def State.writeCmd (s : State) (w : Word) : State :=
  match s.eng with
  | .idle => s.issue w
  | .busy => { s with cmdLost := true }

/-- A 32-bit write at a word-aligned offset of the register block; read-only registers and reserved offsets ignore it
(10_state.md R22, R23). -/
def State.regWrite (s : State) (offset : Nat) (w : Word) : State :=
  if offset = 0x00 then s.writeCmd w
  else if offset = 0x04 then s.writeStatus w
  else if offset = 0x08 then { s with ie := w.getLsbD 0 }
  else if offset = 0x0C then { s with arg0 := w }
  else if offset = 0x10 then { s with arg1 := w }
  else if offset = 0x14 then { s with arg2 := w }
  else if offset = 0x18 then { s with arg3 := w }
  else s

/-- How the register block answers an access: where it lies, and whether it is an aligned 32-bit one. -/
inductive RegSelect where
  /-- An aligned 32-bit access at this offset. -/
  | register (offset : Nat)
  /-- Another width or an unaligned offset (10_state.md R23). -/
  | bad
  /-- Outside the 256 bytes of the block (notes/assumptions/5.md). -/
  | outside
  deriving DecidableEq, Repr

/-- The block occupies REG_BASE to REG_BASE + 0xFF; only aligned 32-bit accesses are taken (10_state.md R22, R23). -/
def Platform.select (p : Platform) (addr width : Nat) : RegSelect :=
  if addr < p.regBase ∨ p.regBase + 0xFF < addr then .outside
  else if width = 32 ∧ (addr - p.regBase) % 4 = 0 then .register (addr - p.regBase)
  else .bad

/-- The regions of the command that runs; none while IDLE. -/
def State.runningRegions (s : State) : List CommandRegions :=
  match s.eng with
  | .idle => []
  | .busy => s.latchedRegions

/-- The regions the host must stay out of: those of the running command and of every command whose completion it has not
observed yet (20_memory.md R71(d), 70_reset_and_hazards.md R271(c); notes/assumptions/32.md). -/
def State.closedRegions (s : State) : List CommandRegions := s.runningRegions ++ s.unobserved

/-- A host read breaks the exclusion in a destination region (20_memory.md R71(d)). -/
def State.readBreaksExclusion (s : State) (a : Addr) : Bool := s.closedRegions.any (fun r => r.dest.contains a)

/-- A host write breaks the exclusion in a source or a destination region (20_memory.md R71(d)). -/
def State.writeBreaksExclusion (s : State) (a : Addr) : Bool :=
  s.closedRegions.any (fun r => r.source.contains a || r.dest.contains a)

/-- What a read of the register block tells the host: STATUS with BUSY = 0 or DONE = 1 is an observation of the completion
(20_memory.md R71(c)). No register changes (10_state.md R23). -/
def State.observeRead (s : State) (offset : Nat) : State :=
  { s with unobserved := if offset = 0x04 ∧ (s.eng = .idle ∨ s.done = true) then [] else s.unobserved }

/-- What a look at IRQ tells the host: IRQ asserted is an observation of the completion (20_memory.md R71(c)). -/
def State.observeIrq (s : State) : State := { s with unobserved := if s.irq then [] else s.unobserved }

/-- One access of the host. A memory access that breaks the exclusion is a fault (93_implementation_defined.md U3). -/
def hostAccess (op : HostOp) (s : State) : Outcome State Fault Refusal :=
  match op with
  | .regRead addr width =>
    match s.platform.select addr width with
    | .register offset => .next { s.observeRead offset with response := .data (s.regRead offset) }
    | .bad => .next { s with response := .busError }
    | .outside => .next { s with response := .notSelected }
  | .regWrite addr width w =>
    match s.platform.select addr width with
    | .register offset => .next { s.regWrite offset w with response := .ack }
    | .bad => .next { s with response := .busError }
    | .outside => .next { s with response := .notSelected }
  | .memRead a =>
    if s.platform.isDevice a then .refused (.deviceAccess a)
    else if s.readBreaksExclusion a then .fault (.exclusionViolated a)
    else .next { s with response := .byte (s.mem.read a) }
  | .memWrite a v =>
    if s.platform.isDevice a then .refused (.deviceAccess a)
    else if s.writeBreaksExclusion a then .fault (.exclusionViolated a)
    else .next { s with mem := s.mem.write a v, response := .ack }
  | .irqLook => .next { s.observeIrq with response := .line s.irq }

/-- Give `n` bytes from address `a` on free values (93_implementation_defined.md U7), stopping at 0xFFFFFFFF. -/
def freeBytes : Nat → Nat → Nat → Memory → Memory
  | 0, _, _, m => m
  | n + 1, a, k, m => if a < 2 ^ 32 then freeBytes n (a + 1) (k + 1) (m.writeKey a (Config.freeByte k)) else m

/-- The destination region whose bytes a reset leaves unspecified: the running command's (70_reset_and_hazards.md
R261). -/
def State.abandonedRegion (s : State) : Region :=
  match s.runningRegions with
  | [] => ⟨0, 0⟩
  | r :: _ => r.dest

/-- The reset event: every piece of state takes its value after reset (10_state.md R48, 70_reset_and_hazards.md R260).
A running command is abandoned and its destination region is unspecified (R261); the shared memory elsewhere, the
platform, what the host still has to do and what it has not observed are not HUFFCORE's. -/
def resetEvent (s : State) : State :=
  { State.reset with
    mem := freeBytes s.abandonedRegion.len s.abandonedRegion.base.toNat s.freeCount s.mem,
    platform := s.platform, inputs := s.inputs, response := s.response, unobserved := s.unobserved,
    freeCount := s.freeCount + s.abandonedRegion.len }

end Sys2Proof.Machine
end

