-- ==== Sys2Proof/Machine/Engine.lean ====
section
/-! DEFINITION. The engine's turn (10_state.md R21, 30_encoding.md R87), one input of the outside (00_scope.md R13), and
how a table word is issued. -/

namespace Sys2Proof.Machine

open Host

/-- IllegalCommand(LCMD, reason) (30_encoding.md R87, R88). -/
def illegalCommand (w : Word) (r : IllegalReason) : CmdError := ⟨.illegalCommand, w, r.number⟩

/-- Whether a command that passed its checks comes to write its destination region: ENCODE and DECODE only when pass 1
raises no error and leaves something to write (44_encoder_packer.md R193, 45_decoder_unpacker.md R213). -/
def writesDest (i : Instr) (s : State) : Bool :=
  match i with
  | .clrfreq => false
  | .setfreq _ => false
  | .ldfreq => false
  | .build => false
  | .gencodes => false
  | .rdcode _ => true
  | .encode =>
    match encodeTotal s with
    | .error _ => false
    | .ok total => decide (0 < total)
  | .decode =>
    match s.arena.tree with
    | none => false
    | some t =>
      match decodeSymbols s t with
      | .error _ => false
      | .ok out => !out.isEmpty
  | .save => true
  | .load => false

/-- Whether a command passes its checks before any access. -/
def passesChecks (i : Instr) (s : State) : Bool :=
  match commandChecks i s with
  | .error _ => false
  | .ok _ => true

/-- Whether a region that the command reads or writes maps a device (20_memory.md R65). A command that ends in a check
before any access (60_exceptions.md R234, 70_reset_and_hazards.md R276) reads and writes none; one that passes reads its
source from the first byte on (notes/assumptions/30.md). -/
def touchesDevice (i : Instr) (s : State) : Bool :=
  (s.platform.mapsDevice (sourceRegion i s) || (s.platform.mapsDevice (destRegion i s) && writesDest i s)) &&
    passesChecks i s

/-- Run a command whose regions are ordinary memory; reading or writing a device's region is a fault (20_memory.md R65,
93_implementation_defined.md U3). -/
def runCommand (i : Instr) (s : State) : Outcome State Fault Refusal :=
  if touchesDevice i s then .fault .regionMapsDevice else exec i s

/-- The engine's turn: it waits while IDLE; while BUSY it decodes LCMD and runs it to its completion (10_state.md R21,
30_encoding.md R87). -/
def engineTurn (s : State) : Outcome State Fault Refusal :=
  match s.eng with
  | .idle => .next s
  | .busy =>
    match decode s.lcmd with
    | .error r => .next (s.raiseError (illegalCommand s.lcmd r))
    | .ok i => runCommand i s

/-- A host access and an engine completion in one cycle: the host first (60_exceptions.md R241). With no command
running there is no completion, and a command the access issues starts later. -/
def hostThenEngine (op : HostOp) (s : State) : Outcome State Fault Refusal :=
  match hostAccess op s with
  | .next t =>
    match s.eng with
    | .idle => .next t
    | .busy => engineTurn t
  | .fault f => .fault f
  | .refused r => .refused r

/-- One input. -/
def takeInput (i : Input) (s : State) : Outcome State Fault Refusal :=
  match i with
  | .engine => engineTurn s
  | .host op => hostAccess op s
  | .hostWithEngine op => hostThenEngine op s
  | .reset => .next (resetEvent s)
  | .setBusErrors regions =>
    match s.eng with
    | .idle => .next { s with platform := { s.platform with busErrors := regions } }
    | .busy => .refused .busErrorsChangedWhileBusy

/-- The next input, or the engine's turn when none waits. -/
def takeNext (s : State) : Outcome State Fault Refusal :=
  match s.inputs with
  | [] => engineTurn s
  | i :: rest => takeInput i { s with inputs := rest }

/-- Issue the word an opcode-table row of `nbits` bits gives, with the engine to move next (notes/assumptions/20.md). -/
def issueTableWord (s : State) (nbits w : Nat) : State :=
  { s.issue (BitVec.ofNat 32 (w % 2 ^ nbits)) with inputs := .engine :: s.inputs }

end Sys2Proof.Machine
end

