-- ==== Sys2Proof/Machine/Step.lean ====
section
/-! DEFINITION. One step of the machine: the next input of the outside, or the engine's turn (00_scope.md R13,
70_reset_and_hazards.md R270). -/

namespace Sys2Proof.Machine

/-- One step. -/
def step (s : State) : Host.Outcome State Fault Refusal := takeNext s

/-- `s` with the word of an opcode-table row issued and the engine to move next: HUFFCORE fetches nothing
(10_state.md R21), a command reaches it by issue (notes/assumptions/20.md). -/
def State.withFetchWord (s : State) (nbits w : Nat) : State := issueTableWord s nbits w

end Sys2Proof.Machine
end

