-- ==== Sys2Proof/Machine/HostProgram.lean ====
section
/-! DEFINITION. The host program syntax of 30_encoding.md R94 and the pseudo-instructions of R95, and the accesses its
statements make. The host's own control flow makes no access to HUFFCORE. -/

namespace Sys2Proof.Machine

/-- The register names of 10_state.md R22. -/
inductive RegName where
  | CMD | STATUS | CTRL | ARG0 | ARG1 | ARG2 | ARG3 | RESULT0 | RESULT1 | ERRPOS | ERRDATA | INFO
  deriving DecidableEq, Repr

/-- The offset of a register in the block (10_state.md R22). -/
def RegName.offset : RegName → Nat
  | .CMD => 0x00
  | .STATUS => 0x04
  | .CTRL => 0x08
  | .ARG0 => 0x0C
  | .ARG1 => 0x10
  | .ARG2 => 0x14
  | .ARG3 => 0x18
  | .RESULT0 => 0x1C
  | .RESULT1 => 0x20
  | .ERRPOS => 0x24
  | .ERRDATA => 0x28
  | .INFO => 0x2C

/-- A condition: a field of a value read earlier, compared with a constant (30_encoding.md R94). -/
structure HostCond where
  value : String
  hi : Nat
  lo : Nat
  equal : Bool
  constant : Word
  deriving DecidableEq, Repr

/-- One statement (30_encoding.md R94). -/
inductive HostStmt where
  | wr (reg : RegName) (value : Word)
  | rd (reg : RegName) (name : String)
  | memw (addr : Addr) (bytes : List Byte)
  | memr (addr : Addr) (count : Nat)
  | label (name : String)
  | jump (name : String)
  | jumpIf (cond : HostCond) (name : String)
  deriving DecidableEq, Repr

/-- The accesses a statement makes, 32-bit register accesses at REG_BASE + offset and byte accesses (30_encoding.md R94).
DESIGN CHOICE: bytes of MEMW and MEMR that run past 0xFFFFFFFF go on at 0x00000000 (notes/assumptions/22.md). -/
def HostStmt.accesses (regBase : Nat) : HostStmt → List HostOp
  | .wr reg v => [.regWrite (regBase + reg.offset) 32 v]
  | .rd reg _ => [.regRead (regBase + reg.offset) 32]
  | .memw a bytes => bytes.zipIdx.map (fun c => .memWrite (addrAt a c.2) c.1)
  | .memr a n => (List.range n).map (fun k => .memRead (addrAt a k))
  | .label _ => []
  | .jump _ => []
  | .jumpIf _ _ => []

/-- ISSUE (30_encoding.md R95). -/
def hostIssue (i : Instr) : List HostStmt := [.wr .CMD (encode i)]

/-- WAIT: read STATUS until BUSY = 0 (30_encoding.md R95). -/
def hostWait : List HostStmt := [.label "L", .rd .STATUS "v", .jumpIf ⟨"v", 0, 0, true, 1#32⟩ "L"]

/-- EXEC: ISSUE, then WAIT (30_encoding.md R95). -/
def hostExec (i : Instr) : List HostStmt := hostIssue i ++ hostWait

/-- ACK: clear DONE and CMDLOST (30_encoding.md R95). -/
def hostAck : List HostStmt := [.wr .STATUS 0x00000012#32]

/-- ARGS a0, a1, a2, a3 (30_encoding.md R95). -/
def hostArgs (a0 a1 a2 a3 : Word) : List HostStmt := [.wr .ARG0 a0, .wr .ARG1 a1, .wr .ARG2 a2, .wr .ARG3 a3]

end Sys2Proof.Machine
end

