-- ==== Sys2Proof/Safety.lean ====
section
/-! DEFINITION. What claims are stated in: the invariants of the machine (10_state.md R27 to R44), what a command leaves
unchanged (R47), and how a command ended (60_exceptions.md R235, R236). -/

namespace Sys2Proof.Machine

/-- The shared memory is in canonical form. -/
def MemoryLegal (s : State) : Prop := s.mem.wf

/-- STATUS, RESULT0, RESULT1, ERRPOS and ERRDATA agree with each other (10_state.md R27, R31, R34, R35;
60_exceptions.md R230). -/
structure StatusLegal (s : State) : Prop where
  /-- "While ENG = BUSY, DONE is 0" (R27), and the results and the error detail are at the 0 issue wrote. -/
  busyClear : s.eng = .busy →
    s.done = false ∧ s.err = 0#4 ∧ s.result0 = 0#32 ∧ s.result1 = 0#32 ∧ s.errPos = 0#32 ∧ s.errData = 0#32
  /-- Codes 12 to 15 are never written (R230). -/
  errAssigned : s.err ≤ 11#4
  /-- An error leaves RESULT0 and RESULT1 at 0 (R34). -/
  errorNoResult : s.err ≠ 0#4 → s.result0 = 0#32 ∧ s.result1 = 0#32
  /-- A success leaves ERRPOS and ERRDATA at 0 (R35). -/
  successNoDetail : s.err = 0#4 → s.errPos = 0#32 ∧ s.errData = 0#32
  /-- Bits 31:11 of ERRDATA are 0 (R35). -/
  detailWidth : s.errData.toNat < 2 ^ 11

/-- An arena holds the tree `t`, with distinct leaf symbols and NLEAVES leaves (10_state.md R41(a) to (e); distinct
leaves leave no node with two paths to it). -/
structure HoldsTree (a : Arena) (t : HuffTree) : Prop where
  shape : a.tree = some t
  distinct : t.symbols.Nodup
  count : a.nleaves.toNat = t.symbols.length

/-- Whenever TREE_VALID = 1 the arena holds a tree (10_state.md R28, R41). -/
def TreeLegal (s : State) : Prop := s.treeValid = true → ∃ t, HoldsTree s.arena t

/-- Whenever CODES_VALID = 1 so is TREE_VALID, and CODE is the code table of the current tree (10_state.md R29). -/
def CodesLegal (s : State) : Prop :=
  s.codesValid = true → s.treeValid = true ∧ ∃ t, HoldsTree s.arena t ∧ s.code = codeTable t

/-- All the invariants. -/
structure Legal (s : State) : Prop where
  memory : MemoryLegal s
  status : StatusLegal s
  tree : TreeLegal s
  codes : CodesLegal s

/-- FREQ and FW are unchanged. -/
def KeepsFreq (s t : State) : Prop := t.freq = s.freq ∧ t.fw = s.fw

/-- NODE, ROOT, NLEAVES and TREE_VALID are unchanged. -/
def KeepsTree (s t : State) : Prop := t.arena = s.arena ∧ t.treeValid = s.treeValid

/-- CODE and CODES_VALID are unchanged. -/
def KeepsCodes (s t : State) : Prop := t.code = s.code ∧ t.codesValid = s.codesValid

/-- Every byte of the shared memory reads as before. -/
def KeepsMemory (s t : State) : Prop := ∀ a : Addr, t.mem.read a = s.mem.read a

/-- Every byte of the shared memory outside the `n` bytes from `base` reads as before. -/
def KeepsMemoryOutside (base : Addr) (n : Nat) (s t : State) : Prop :=
  ∀ a : Addr, Region.contains ⟨base, n⟩ a = false → t.mem.read a = s.mem.read a

/-- CTRL, CMDLOST, ARG0 to ARG3, and what lies outside HUFFCORE but for the memory, are unchanged. The latched state is
any value once the command is over (93_implementation_defined.md U5). -/
def KeepsControl (s t : State) : Prop :=
  t.ie = s.ie ∧ t.cmdLost = s.cmdLost ∧
    t.arg0 = s.arg0 ∧ t.arg1 = s.arg1 ∧ t.arg2 = s.arg2 ∧ t.arg3 = s.arg3 ∧
    t.platform = s.platform ∧ t.inputs = s.inputs ∧ t.response = s.response

/-- `t` is `s` after `complete(r0, r1)`: ERRPOS and ERRDATA stay (60_exceptions.md R235). -/
def Succeeded (s t : State) (r0 r1 : Word) : Prop :=
  t.result0 = r0 ∧ t.result1 = r1 ∧ t.err = 0#4 ∧ t.errPos = s.errPos ∧ t.errData = s.errData ∧
    t.eng = .idle ∧ t.done = true

/-- `t` is `s` after `raise e`: RESULT0 and RESULT1 stay (60_exceptions.md R236). -/
def Raised (s t : State) (e : CmdError) : Prop :=
  t.errPos = e.pos ∧ t.errData = e.data.setWidth 32 ∧ t.err = e.kind.code ∧ t.result0 = s.result0 ∧
    t.result1 = s.result1 ∧ t.eng = .idle ∧ t.done = true

/-- The internal memories and the valid bits are unchanged. -/
def KeepsTables (s t : State) : Prop := KeepsFreq s t ∧ KeepsTree s t ∧ KeepsCodes s t

/-- The outcome with a function applied to its next state. -/
def mapNext (f : State → State) : Host.Outcome State Fault Refusal → Host.Outcome State Fault Refusal
  | .next s => .next (f s)
  | .fault r => .fault r
  | .refused r => .refused r

/-- The state with other values in ARG0 to ARG3. -/
def State.withArgs (s : State) (a0 a1 a2 a3 : Word) : State := { s with arg0 := a0, arg1 := a1, arg2 := a2, arg3 := a3 }

/-- No engine access of a kind to the `n` bytes from `base` gets a bus error (20_memory.md R64). -/
abbrev NoBusError (s : State) (base : Addr) (n : Nat) (kind : AccessKind) : Prop :=
  ∀ k, k < n → s.platform.busError (addrAt base k) kind = false

/-- The byte at offset `k` of a region. -/
def byteAt (s : State) (base : Addr) (k : Nat) : Byte := s.mem.read (addrAt base k)

/-- The first `n` bytes of a region. -/
def regionBytes (s : State) (base : Addr) (n : Nat) : List Byte := (List.range n).map (byteAt s base)

/-- Bit b_k of the packed stream at `base` (00_scope.md R10). -/
def streamBit (s : State) (base : Addr) (k : Nat) : Bool := positionBit (byteAt s base (k / 8)) (k % 8)

/-- The first `n` bits of the packed stream at `base`. -/
def streamBits (s : State) (base : Addr) (n : Nat) : List Bool := (List.range n).map (streamBit s base)

/-- The code bits of a symbol sequence under a code table, in order (44_encoder_packer.md R190). -/
def codeBits (code : Vector CodeEntry 256) (symbols : List Sym) : List Bool :=
  symbols.flatMap (fun sym => (codeOf code sym).path)

/-- The bits ENCODE packs: the codes of its source bytes (44_encoder_packer.md R190). -/
def encodedBits (s : State) : List Bool := codeBits s.code (regionBytes s s.larg0 s.larg1.toNat)

/-- The preorder of a tree, node by node: an internal node is `none`, a leaf is its symbol (43_tree_codec.md R160). -/
def HuffTree.tokens : HuffTree → List (Option Sym)
  | .leaf sym => [some sym]
  | .node l r => none :: (l.tokens ++ r.tokens)

/-- The bytes of one node (43_tree_codec.md R160). -/
def tokenBytes : Option Sym → List Byte
  | none => [0x00#8]
  | some sym => [0x01#8, sym]

/-- The arena LOAD makes of a tree whose first node has index `k`: preorder, every freq 0 (43_tree_codec.md R168). A tree of
L leaves has 2L - 1 nodes. -/
def HuffTree.preorderNodes : HuffTree → Nat → List Node
  | .leaf sym, _ => [.leaf sym 0#40]
  | .node l r, k =>
    .internal (Fin.ofNat 511 (k + 1)) (Fin.ofNat 511 (k + 2 * l.symbols.length)) 0#40 ::
      (l.preorderNodes (k + 1) ++ r.preorderNodes (k + 2 * l.symbols.length))

/-- The code of a symbol in a tree (42_code_generator.md R142). -/
def HuffTree.codeFor (t : HuffTree) (sym : Sym) : List Bool := (t.codes.lookup sym).getD []

/-- The code bits of a symbol sequence in a tree. -/
def HuffTree.encodeAll (t : HuffTree) (symbols : List Sym) : List Bool := symbols.flatMap t.codeFor

/-- The weighted sum of leaf depths (41_tree_builder.md R125). -/
def HuffTree.cost (freq : Vector Word 256) (t : HuffTree) : Nat :=
  ((t.leafPaths []).map (fun c => (freqOf freq c.1).toNat * c.2.length)).sum

/-- A region is empty or ends at or below 2^32 (20_memory.md R66). -/
abbrev Region.Fits (r : Region) : Prop := r.len = 0 ∨ r.base.toNat + r.len ≤ 2 ^ 32

/-- Two regions share no address, or one is empty (20_memory.md R67). -/
abbrev Region.Apart (r t : Region) : Prop :=
  r.len = 0 ∨ t.len = 0 ∨ r.base.toNat + r.len ≤ t.base.toNat ∨ t.base.toNat + t.len ≤ r.base.toNat

/-- The regions of ENCODE or DECODE pass their checks (20_memory.md R66, R67). -/
abbrev RegionsLegal (i : Instr) (s : State) : Prop :=
  (sourceRegion i s).Fits ∧ (destRegion i s).Fits ∧ (sourceRegion i s).Apart (destRegion i s)

/-- When LDFREQ succeeds (40_frequency_table.md R102). -/
abbrev LdfreqReady (s : State) : Prop :=
  s.larg0.toNat + 1024 ≤ 2 ^ 32 ∧ NoBusError s s.larg0 1024 .read

/-- When RDCODE succeeds (42_code_generator.md R144). -/
abbrev RdcodeReady (s : State) : Prop :=
  s.codesValid = true ∧ s.larg2.toNat + 32 ≤ 2 ^ 32 ∧ 32 ≤ s.larg3.toNat ∧ NoBusError s s.larg2 32 .write ∧ s.mem.wf

/-- When ENCODE succeeds (44_encoder_packer.md R193). -/
abbrev EncodeReady (s : State) : Prop :=
  s.codesValid = true ∧ RegionsLegal .encode s ∧ NoBusError s s.larg0 s.larg1.toNat .read ∧
    (∀ k, k < s.larg1.toNat → (codeOf s.code (byteAt s s.larg0 k)).len ≠ 0#8) ∧
    (encodedBits s).length ≤ 8 * s.larg3.toNat ∧ (encodedBits s).length < 2 ^ 32 ∧
    NoBusError s s.larg2 (ceil8 (encodedBits s).length) .write ∧ s.mem.wf

/-- When DECODE of the codes of `symbols` in the tree `t` succeeds (45_decoder_unpacker.md R213). -/
abbrev DecodeReady (s : State) (t : HuffTree) (symbols : List Sym) : Prop :=
  s.treeValid = true ∧ s.arena.tree = some t ∧ RegionsLegal .decode s ∧
    NoBusError s s.larg0 (ceil8 s.larg1.toNat) .read ∧ (∀ sym ∈ symbols, sym ∈ t.symbols) ∧
    streamBits s s.larg0 s.larg1.toNat = t.encodeAll symbols ∧ symbols.length ≤ s.larg3.toNat ∧
    NoBusError s s.larg2 symbols.length .write ∧ s.mem.wf

/-- When SAVE of the tree `t` succeeds (43_tree_codec.md R161). -/
abbrev SaveReady (s : State) (t : HuffTree) : Prop :=
  s.treeValid = true ∧ HoldsTree s.arena t ∧ (destRegion .save s).Fits ∧
    3 * t.symbols.length - 1 ≤ s.larg3.toNat ∧ NoBusError s s.larg2 (3 * t.symbols.length - 1) .write ∧ s.mem.wf

/-- When LOAD of the serialized tree `t` succeeds (43_tree_codec.md R167): the stream begins with it. -/
abbrev LoadReady (s : State) (t : HuffTree) : Prop :=
  t.symbols.Nodup ∧ (sourceRegion .load s).Fits ∧ t.serialize.length ≤ s.larg1.toNat ∧
    NoBusError s s.larg0 t.serialize.length .read ∧ regionBytes s s.larg0 t.serialize.length = t.serialize

/-- The valid bit a command needs is set (70_reset_and_hazards.md R265). -/
def CommandReady (i : Instr) (s : State) : Prop :=
  match i with
  | .gencodes => s.treeValid = true
  | .save => s.treeValid = true
  | .decode => s.treeValid = true
  | .rdcode _ => s.codesValid = true
  | .encode => s.codesValid = true
  | .clrfreq => True
  | .setfreq _ => True
  | .ldfreq => True
  | .build => True
  | .load => True

end Sys2Proof.Machine
end

