-- ==== Sys2Proof/Certificates/Slice0/Obligations.lean ====
section
/-! DEFINITION. The statements for the provers, from the numbered rules of spec/. Each docstring names its rule. -/

open Sys2Proof Sys2Proof.Machine

/-! ## Command words -/

/-- 30_encoding.md R81, R84, R87: a word decodes to a command exactly when it is that command's word, for every
operand. -/
def Obligations.DecodeInvertsEncode : Prop := ∀ (w : Word) (i : Instr), decode w = .ok i ↔ encode i = w

/-- 30_encoding.md R84: "A command word w selects a row when w & mask = match". A word that decodes selects exactly its
own command's row, its symbol is SYM, and a word that does not decode selects no row. -/
def Obligations.DecodeAgreesWithOpcodeTable : Prop :=
  ∀ w : Word,
    (∀ i, decode w = .ok i →
      (opcodeTable.filter (fun r => r.selects w)).map OpcodeRow.mnemonic = [i.mnemonic] ∧
        i.symField = w.extractLsb' 8 8) ∧
    (∀ r, decode w = .error r → ∀ row ∈ opcodeTable, row.selects w = false)

/-- Words written out from 30_encoding.md R84 and its patterns, with the corner cases of R88. -/
def Obligations.TableWordsDecode : Prop :=
  decode 0x00000001#32 = .ok .clrfreq ∧ decode 0x00006102#32 = .ok (.setfreq 0x61#8) ∧
    decode 0x00000010#32 = .ok .build ∧ decode 0x0000FF12#32 = .ok (.rdcode 0xFF#8) ∧
    decode 0x00000020#32 = .ok .encode ∧ decode 0x00000031#32 = .ok .load ∧
    decode 0x00000000#32 = .error .unassignedOpcode ∧ decode 0x00010104#32 = .error .unassignedOpcode ∧
    decode 0x00010110#32 = .error .nonzeroRsv ∧ decode 0x00000110#32 = .error .nonzeroSym

/-- 30_encoding.md R87: the engine decodes LCMD in the order opcode, RSV, SYM; a word that fails a check completes with
IllegalCommand(LCMD, reason) and changes no internal memory, no valid bit and no shared memory; any other runs its
command. -/
def Obligations.EngineDecodesInOrder : Prop :=
  ∀ s : State, s.eng = .busy →
    let f := Fields.ofWord s.lcmd
    let illegal := fun reason : BitVec 11 =>
      ∃ t, engineTurn s = .next t ∧ Raised s t ⟨.illegalCommand, s.lcmd, reason⟩ ∧ KeepsTables s t ∧
        t.mem = s.mem ∧ KeepsControl s t
    (f.opc ∉ assignedOpcodes → illegal 1#11) ∧
    (f.opc ∈ assignedOpcodes → f.rsv ≠ 0#16 → illegal 3#11) ∧
    (f.opc ∈ assignedOpcodes → f.rsv = 0#16 → f.opc ≠ 0x02#8 → f.opc ≠ 0x12#8 → f.sym ≠ 0#8 → illegal 2#11) ∧
    (f.opc ∈ assignedOpcodes → f.rsv = 0#16 → f.opc = 0x02#8 ∨ f.opc = 0x12#8 ∨ f.sym = 0#8 →
      ∃ i, decode s.lcmd = .ok i ∧ i.fields = f ∧ engineTurn s = runCommand i s)

/-! ## Steps, issue and the register block -/

/-- 70_reset_and_hazards.md R270: one step of the engine runs the latched command whole, when the engine's input comes
next, when no input waits, and after a word is issued through `withFetchWord`. The premise that no region it reads or
writes maps a device is 20_memory.md R65's; a command that ends in NoTree, NoCodes, BadRegion, or the OutputOverflow of
SAVE or RDCODE makes no access (60_exceptions.md R234), so it completes whatever its regions map. That an issued command is
one step is the model's choice (notes/assumptions/2.md, 20.md). -/
def Obligations.StepRunsLatchedCommand : Prop :=
  (∀ (s : State) (rest : List Input) (i : Instr), s.eng = .busy → decode s.lcmd = .ok i → touchesDevice i s = false →
    s.inputs = .engine :: rest → step s = exec i { s with inputs := rest }) ∧
  (∀ (s : State) (i : Instr), s.eng = .busy → decode s.lcmd = .ok i → touchesDevice i s = false →
    s.inputs = [] → step s = exec i s) ∧
  (∀ (s t : State) (i : Instr), s.eng = .busy → decode s.lcmd = .ok i → s.inputs = [] → exec i s = .next t →
    (t.err = 8#4 ∨ t.err = 9#4 ∨ t.err = 11#4 ∨ t.err = 10#4 ∧ (i = .save ∨ ∃ sym, i = .rdcode sym)) →
    step s = .next t) ∧
  (∀ (s : State) (i : Instr), touchesDevice i (s.issue (encode i)) = false →
    step (s.withFetchWord 32 (encode i).toNat) = exec i (s.issue (encode i)))

/-- 30_encoding.md R86: issue, as one step of a host write to CMD while IDLE. -/
def Obligations.IssueLatchesCommandAndOperands : Prop :=
  ∀ (s : State) (rest : List Input) (w : Word), s.eng = .idle →
    s.inputs = .host (.regWrite s.platform.regBase 32 w) :: rest →
    ∃ t, step s = .next t ∧ t.lcmd = w ∧ t.larg0 = s.arg0 ∧ t.larg1 = s.arg1 ∧ t.larg2 = s.arg2 ∧ t.larg3 = s.arg3 ∧
      t.eng = .busy ∧ t.done = false ∧ t.err = 0#4 ∧ t.result0 = 0#32 ∧ t.result1 = 0#32 ∧ t.errPos = 0#32 ∧
      t.errData = 0#32 ∧ t.irq = false ∧ t.cmdLost = s.cmdLost ∧ t.ie = s.ie ∧ KeepsTables s t ∧ t.mem = s.mem ∧
      t.arg0 = s.arg0 ∧ t.arg1 = s.arg1 ∧ t.arg2 = s.arg2 ∧ t.arg3 = s.arg3

/-- 30_encoding.md R85: a CMD write while IDLE is an issue; while BUSY it is discarded, sets CMDLOST, and changes no other
state. -/
def Obligations.CommandWriteIssuesOrIsLost : Prop :=
  ∀ (s : State) (rest : List Input) (w : Word),
    s.inputs = .host (.regWrite s.platform.regBase 32 w) :: rest →
    (s.eng = .idle → step s = .next { s.issue w with inputs := rest, response := .ack }) ∧
    (s.eng = .busy → step s = .next { s with inputs := rest, cmdLost := true, response := .ack })

/-- 10_state.md R25: the fields of STATUS as the host reads them, what reads 0, what a write of STATUS clears, and its reset
value. -/
def Obligations.StatusFieldsAndWriteOneToClear : Prop :=
  State.reset.statusWord = 0#32 ∧ ∀ (s : State) (w : Word),
    hostAccess (.regRead (s.platform.regBase + 0x04) 32) s =
      .next { s.observeRead 0x04 with response := .data s.statusWord } ∧
    s.statusWord.getLsbD 0 = (s.eng == .busy) ∧ s.statusWord.getLsbD 1 = s.done ∧
    s.statusWord.getLsbD 2 = s.treeValid ∧ s.statusWord.getLsbD 3 = s.codesValid ∧
    s.statusWord.getLsbD 4 = s.cmdLost ∧ s.statusWord.extractLsb' 5 3 = 0#3 ∧
    s.statusWord.extractLsb' 8 4 = s.err ∧ s.statusWord.extractLsb' 12 20 = 0#20 ∧
    hostAccess (.regWrite (s.platform.regBase + 0x04) 32 w) s =
      .next { s with
        done := if w.getLsbD 1 then false else s.done, cmdLost := if w.getLsbD 4 then false else s.cmdLost,
        response := .ack }

/-- 10_state.md R36: the fields of INFO as the host reads them; MAXLEN bounds every code length and is one of them; and
their ranges in states that meet the invariants of the tree and of the codes, stated below. -/
def Obligations.InfoShowsLeavesAndLongestCode : Prop :=
  State.reset.infoWord = 0#32 ∧ ∀ s : State,
    hostAccess (.regRead (s.platform.regBase + 0x2C) 32) s = .next { s with response := .data s.infoWord } ∧
    (TreeLegal s → s.treeValid = true → 1 ≤ (s.infoWord.extractLsb' 0 9).toNat ∧
      (s.infoWord.extractLsb' 0 9).toNat ≤ 256) ∧
    (CodesLegal s → s.codesValid = true → 1 ≤ (s.infoWord.extractLsb' 16 8).toNat) ∧
    s.infoWord.extractLsb' 0 9 = (if s.treeValid then s.arena.nleaves else 0#9) ∧
    s.infoWord.extractLsb' 9 7 = 0#7 ∧ s.infoWord.extractLsb' 24 8 = 0#8 ∧
    (s.codesValid = false → s.infoWord.extractLsb' 16 8 = 0#8) ∧
    (s.codesValid = true →
      (∀ sym, (codeOf s.code sym).len ≤ s.infoWord.extractLsb' 16 8) ∧
        ∃ sym, (codeOf s.code sym).len = s.infoWord.extractLsb' 16 8)

/-- 60_exceptions.md R240: IRQ = CTRL.IE AND STATUS.DONE; a completion raises it when enabled, an issue, a write of 1 to
STATUS bit 1 and reset drop it, and setting IE later asserts it if DONE = 1. -/
def Obligations.InterruptFollowsEnableAndDone : Prop :=
  (∀ s : State, s.irq = (s.ie && s.done)) ∧
  (∀ (i : Instr) (s t : State), exec i s = .next t → t.irq = s.ie) ∧
  (∀ (s : State) (w : Word), (s.issue w).irq = false) ∧
  (∀ (s : State) (w : Word), w.getLsbD 1 = true → (s.regWrite 0x04 w).irq = false) ∧
  (∀ (s : State) (w : Word), (s.regWrite 0x08 w).irq = (w.getLsbD 0 && s.done)) ∧
  State.reset.irq = false

/-- 10_state.md R23: accesses of another width or at an unaligned offset get a bus error; reserved offsets read 0; writes
to reserved offsets and read-only registers are ignored; no read has a side effect; in either mode. Only what the host
heard and has observed changes, and that is no state of HUFFCORE (notes/assumptions/21.md, 32.md). -/
def Obligations.RegisterAccessRules : Prop :=
  ∀ (s : State) (off width : Nat) (w : Word), off ≤ 0xFF →
    ((width ≠ 32 ∨ off % 4 ≠ 0) →
      hostAccess (.regRead (s.platform.regBase + off) width) s = .next { s with response := .busError } ∧
        hostAccess (.regWrite (s.platform.regBase + off) width w) s = .next { s with response := .busError }) ∧
    (off % 4 = 0 →
      (∃ v u, hostAccess (.regRead (s.platform.regBase + off) 32) s =
        .next { s with response := .data v, unobserved := u }) ∧
      (0x30 ≤ off →
        hostAccess (.regRead (s.platform.regBase + off) 32) s = .next { s with response := .data 0#32 }) ∧
      (0x1C ≤ off →
        hostAccess (.regWrite (s.platform.regBase + off) 32 w) s = .next { s with response := .ack }) ∧
      (off = 0x04 → ∃ d l, hostAccess (.regWrite (s.platform.regBase + off) 32 w) s =
        .next { s with done := d, cmdLost := l, response := .ack }))

/-- 10_state.md R22, R24, R32 to R36: what a host read of each named register returns, at its offset. -/
def Obligations.RegisterMapReads : Prop :=
  ∀ s : State,
    let read := fun reg : RegName => hostAccess (.regRead (s.platform.regBase + reg.offset) 32) s
    let gives := fun v : Word => Host.Outcome.next { s with response := .data v }
    read .CMD = gives 0#32 ∧
    read .STATUS = .next { s.observeRead 0x04 with response := .data s.statusWord } ∧
    read .CTRL = gives (BitVec.zeroExtend 32 (BitVec.ofBool s.ie)) ∧
    read .ARG0 = gives s.arg0 ∧ read .ARG1 = gives s.arg1 ∧ read .ARG2 = gives s.arg2 ∧ read .ARG3 = gives s.arg3 ∧
    read .RESULT0 = gives s.result0 ∧ read .RESULT1 = gives s.result1 ∧ read .ERRPOS = gives s.errPos ∧
    read .ERRDATA = gives s.errData ∧ read .INFO = gives s.infoWord

/-- 10_state.md R32, R33: a write of CTRL takes IE from bit 0; a write of ARG0 to ARG3, in either mode, changes that
register and nothing the running command reads. -/
def Obligations.ControlAndArgumentWrites : Prop :=
  ∀ (s : State) (w : Word),
    let write := fun reg : RegName => hostAccess (.regWrite (s.platform.regBase + reg.offset) 32 w) s
    write .CTRL = .next { s with ie := w.getLsbD 0, response := .ack } ∧
    write .ARG0 = .next { s with arg0 := w, response := .ack } ∧
    write .ARG1 = .next { s with arg1 := w, response := .ack } ∧
    write .ARG2 = .next { s with arg2 := w, response := .ack } ∧
    write .ARG3 = .next { s with arg3 := w, response := .ack }

/-- 10_state.md R33: "A running command reads only the latched copies": other values in ARG0 to ARG3 change nothing a
command does, and they come out as they went in. -/
def Obligations.CommandsIgnoreArgumentRegisters : Prop :=
  ∀ (i : Instr) (s : State) (a0 a1 a2 a3 : Word),
    exec i (s.withArgs a0 a1 a2 a3) = mapNext (fun t => t.withArgs a0 a1 a2 a3) (exec i s)

/-- 60_exceptions.md R241: in the cycle of a completion the host access, whatever it is, is ordered first. A CMD write is dropped with
CMDLOST = 1 and the command completes; a write of 1 to STATUS.DONE does not clear the new DONE; a read of STATUS
returns BUSY = 1. -/
def Obligations.HostComesFirstInTheCompletionCycle : Prop :=
  ∀ (s : State) (rest : List Input), s.eng = .busy →
    (∀ op t, s.inputs = .hostWithEngine op :: rest → hostAccess op { s with inputs := rest } = .next t →
      step s = engineTurn t) ∧
    (∀ w, s.inputs = .hostWithEngine (.regWrite s.platform.regBase 32 w) :: rest →
      step s = engineTurn { s with inputs := rest, cmdLost := true, response := .ack } ∧
        ∀ t, step s = .next t → t.cmdLost = true ∧ t.eng = .idle) ∧
    (∀ w t, s.inputs = .hostWithEngine (.regWrite (s.platform.regBase + 0x04) 32 w) :: rest → step s = .next t →
      t.done = true) ∧
    (∀ t, s.inputs = .hostWithEngine (.regRead (s.platform.regBase + 0x04) 32) :: rest → step s = .next t →
      ∃ v, t.response = .data v ∧ v.getLsbD 0 = true ∧ t.eng = .idle)

/-- 20_memory.md R71(d), 70_reset_and_hazards.md R271(c): from its issue until the host observes its completion, a host
write in a command's source or destination region and a host read in its destination region stop the model
(93_implementation_defined.md U3, treatment "fault"; that it stops at the access, and not only until the completion, is the
model's choice, notes/assumptions/11.md, 32.md); elsewhere they read and write the byte. A command that ends leaves its
regions closed, and reading STATUS with BUSY = 0 or DONE = 1, or IRQ asserted, opens all (R71(c)). -/
def Obligations.HostMustStayOutOfRunningRegions : Prop :=
  (∀ (s : State) (a : Addr) (v : Byte), s.platform.isDevice a = false →
    let closed := fun r : CommandRegions =>
      (s.eng = .busy ∧ ∃ i, decode s.lcmd = .ok i ∧ r = ⟨sourceRegion i s, destRegion i s⟩) ∨ r ∈ s.unobserved
    (∀ r, closed r → r.source.contains a = true ∨ r.dest.contains a = true →
      hostAccess (.memWrite a v) s = .fault (.exclusionViolated a)) ∧
    (∀ r, closed r → r.dest.contains a = true → hostAccess (.memRead a) s = .fault (.exclusionViolated a)) ∧
    ((∀ r, closed r → r.source.contains a = false ∧ r.dest.contains a = false) →
      hostAccess (.memWrite a v) s = .next { s with mem := s.mem.write a v, response := .ack }) ∧
    ((∀ r, closed r → r.dest.contains a = false) →
      hostAccess (.memRead a) s = .next { s with response := .byte (s.mem.read a) })) ∧
  (∀ (s t : State) (i : Instr), decode s.lcmd = .ok i → exec i s = .next t →
    t.unobserved = ⟨sourceRegion i s, destRegion i s⟩ :: s.unobserved) ∧
  (∀ s t : State, hostAccess (.regRead (s.platform.regBase + 0x04) 32) s = .next t →
    t.unobserved = if s.eng = .idle ∨ s.done = true then [] else s.unobserved) ∧
  (∀ s t : State, hostAccess .irqLook s = .next t →
    t.response = .line s.irq ∧ t.unobserved = if s.irq = true then [] else s.unobserved)

/-- 70_reset_and_hazards.md R260, R261: reset in either mode gives every register its reset value as one step; a running
command is abandoned, and no byte outside its destination region changes. -/
def Obligations.ResetAbandonsTheCommand : Prop :=
  ∀ (s : State) (rest : List Input), s.inputs = .reset :: rest →
    ∃ t, step s = .next t ∧ t.eng = .idle ∧ t.statusWord = 0#32 ∧ t.infoWord = 0#32 ∧ t.ie = false ∧ t.irq = false ∧
      t.arg0 = 0#32 ∧ t.arg1 = 0#32 ∧ t.arg2 = 0#32 ∧ t.arg3 = 0#32 ∧ t.result0 = 0#32 ∧ t.result1 = 0#32 ∧
      t.errPos = 0#32 ∧ t.errData = 0#32 ∧ t.fw = Vector.replicate 256 false ∧
      (∀ a : Addr, (∀ i, s.eng = .busy → decode s.lcmd = .ok i → (destRegion i s).contains a = false) →
        t.mem.read a = s.mem.read a)

/-- 10_state.md R48: the reset values the spec gives. -/
def Obligations.ResetValuesOfTheSpec : Prop :=
  State.reset.eng = .idle ∧ State.reset.regRead 0x00 = 0#32 ∧ State.reset.statusWord = 0#32 ∧
    State.reset.ctrlWord = 0#32 ∧ State.reset.arg0 = 0#32 ∧ State.reset.arg1 = 0#32 ∧ State.reset.arg2 = 0#32 ∧
    State.reset.arg3 = 0#32 ∧ State.reset.result0 = 0#32 ∧ State.reset.result1 = 0#32 ∧
    State.reset.errPos = 0#32 ∧ State.reset.errData = 0#32 ∧ State.reset.infoWord = 0#32 ∧
    State.reset.irq = false ∧ ∀ sym : Fin 256, State.reset.fw[sym] = false

/-! ## Frequency table -/

/-- 40_frequency_table.md R100: CLRFREQ, word 0x00000001, sets every FREQ[s] to 0 and every FW[s] to 1, and completes with (0, 0). -/
def Obligations.ClrfreqEmptiesTheTable : Prop :=
  encode .clrfreq = 0x00000001#32 ∧ ∀ s : State, ∃ t, exec .clrfreq s = .next t ∧ (∀ sym, freqOf t.freq sym = 0#32) ∧
    (∀ k : Fin 256, t.fw[k] = true) ∧ Succeeded s t 0#32 0#32 ∧ KeepsTree s t ∧ KeepsCodes s t ∧ KeepsMemory s t ∧
    KeepsControl s t

/-- 40_frequency_table.md R101: SETFREQ sym, word 0x0000ss02, writes LARG0 to FREQ[sym], sets FW[sym], leaves every other entry alone, and
completes with (0, 0). -/
def Obligations.SetfreqWritesOneEntry : Prop :=
  ∀ (s : State) (sym : Sym), encode (.setfreq sym) = 0#16 ++ sym ++ 0x02#8 ∧
    ∃ t, exec (.setfreq sym) s = .next t ∧ freqOf t.freq sym = s.larg0 ∧
    t.fw[sym.toNat]'sym.isLt = true ∧
    (∀ other : Sym, other ≠ sym → freqOf t.freq other = freqOf s.freq other ∧
      t.fw[other.toNat]'other.isLt = s.fw[other.toNat]'other.isLt) ∧
    Succeeded s t 0#32 0#32 ∧ KeepsTree s t ∧ KeepsCodes s t ∧ KeepsMemory s t ∧ KeepsControl s t

/-- 40_frequency_table.md R102, 20_memory.md R68: LDFREQ loads 256 little-endian words, word s at base + 4s, sets every
FW, and completes with (0, 0). -/
def Obligations.LdfreqLoadsTheImage : Prop :=
  ∀ s : State, LdfreqReady s → ∃ t, exec .ldfreq s = .next t ∧
    (∀ sym : Sym, freqOf t.freq sym =
      byteAt s s.larg0 (4 * sym.toNat + 3) ++ byteAt s s.larg0 (4 * sym.toNat + 2) ++
        byteAt s s.larg0 (4 * sym.toNat + 1) ++ byteAt s s.larg0 (4 * sym.toNat)) ∧
    (∀ k : Fin 256, t.fw[k] = true) ∧ Succeeded s t 0#32 0#32 ∧ KeepsTree s t ∧ KeepsCodes s t ∧ KeepsMemory s t ∧
    KeepsControl s t

/-- 40_frequency_table.md R102: a wrapping image raises BadRegion(base, 0), the first failing read raises
IoFailure(addr, 0), and in both cases FREQ and FW are unchanged. -/
def Obligations.LdfreqFailureKeepsTheTable : Prop :=
  ∀ s : State,
    (2 ^ 32 < s.larg0.toNat + 1024 → ∃ t, exec .ldfreq s = .next t ∧ Raised s t ⟨.badRegion, s.larg0, 0#11⟩ ∧
      KeepsTables s t ∧ KeepsMemory s t ∧ KeepsControl s t) ∧
    (∀ k, s.larg0.toNat + 1024 ≤ 2 ^ 32 → k < 1024 → NoBusError s s.larg0 k .read →
      s.platform.busError (addrAt s.larg0 k) .read = true →
      ∃ t, exec .ldfreq s = .next t ∧ Raised s t ⟨.ioFailure, addrAt s.larg0 k, 0#11⟩ ∧ KeepsTables s t ∧
        KeepsMemory s t ∧ KeepsControl s t)

/-! ## TreeBuilder -/

/-- 41_tree_builder.md R120, R123: BUILD of a written table with some entry above 0 makes a full tree whose leaves are
exactly the symbols with FREQ > 0, sets TREE_VALID and clears CODES_VALID, and completes with (n, 0). -/
def Obligations.BuildMakesATreeOfTheAlphabet : Prop :=
  ∀ s : State, s.freqWritten = true → (∃ sym, freqOf s.freq sym ≠ 0#32) →
    ∃ t tr, exec .build s = .next t ∧ HoldsTree t.arena tr ∧
      (∀ sym, sym ∈ tr.symbols ↔ freqOf s.freq sym ≠ 0#32) ∧
      t.arena.root.val = 2 * tr.symbols.length - 2 ∧ t.treeValid = true ∧ t.codesValid = false ∧
      Succeeded s t (BitVec.ofNat 32 tr.symbols.length) 0#32 ∧ KeepsFreq s t ∧ KeepsMemory s t ∧
      KeepsControl s t

/-- 41_tree_builder.md R123, 10_state.md R28: BUILD of a written table with every entry 0 raises EmptyAlphabet(0, 0) and
leaves no usable tree and no codes. -/
def Obligations.BuildOfEmptyTableFails : Prop :=
  ∀ s : State, s.freqWritten = true → (∀ sym, freqOf s.freq sym = 0#32) →
    ∃ t, exec .build s = .next t ∧ Raised s t ⟨.emptyAlphabet, 0#32, 0#11⟩ ∧ t.treeValid = false ∧
      t.codesValid = false ∧ KeepsFreq s t ∧ KeepsMemory s t ∧ KeepsControl s t

/-- 70_reset_and_hazards.md R266 ("it treats that BUILD as a fault"), 93_implementation_defined.md U1: BUILD with some
FW[s] = 0 is a fault of the model. -/
def Obligations.BuildOfUnwrittenTableFaults : Prop :=
  ∀ (s : State) (k : Fin 256), s.fw[k] = false → exec .build s = .fault .unwrittenFrequency

/-- 41_tree_builder.md R121, R122: one merge extracts the two least keys (frequency, then index), makes the first the left
child and the second the right, sums their frequencies at the next free index, and puts that index in the pool. -/
def Obligations.MergeTakesTheTwoLeastKeys : Prop :=
  ∀ b : Builder, b.pool.Nodup → 2 ≤ b.pool.length → (hn : b.next < 511) →
    let before := fun i j : NodeIdx =>
      b.node[i].freq < b.node[j].freq ∨ (b.node[i].freq = b.node[j].freq ∧ i < j)
    ∃ x y, x ∈ b.pool ∧ y ∈ b.pool ∧ before x y ∧ (∀ z ∈ b.pool, z ≠ x → z ≠ y → before y z) ∧
      b.merge.node[b.next] = .internal x y (b.node[x].freq + b.node[y].freq) ∧
      (∀ k : NodeIdx, k.val ≠ b.next → b.merge.node[k] = b.node[k]) ∧
      (∀ z, z ∈ b.merge.pool ↔ z = ⟨b.next, hn⟩ ∨ (z ∈ b.pool ∧ z ≠ x ∧ z ≠ y)) ∧
      b.merge.pool.length = b.pool.length - 1 ∧ b.merge.next = b.next + 1

/-- 41_tree_builder.md R121, R124, R126: the shape of a built arena of n leaves: leaves at 0 to n - 1 in ascending order of
the symbols with FREQ > 0, internal nodes from n on
with children of lower index, ROOT = 2n - 2, and a root frequency equal to the exact sum of FREQ. The spec marks R124 and R126
as its own inference ("Shape facts of a built tree [derived: from rules R122 and R123]"). -/
def Obligations.BuiltArenaShape : Prop :=
  ∀ (freq : Vector Word 256) (node : Vector Node 511) (n : Nat), n = (alphabet freq).length → 0 < n →
    let a := builtArena freq node
    a.root.val = 2 * n - 2 ∧ (∃ t, HoldsTree a t) ∧
      (∃ syms : List Sym, syms.Pairwise (· < ·) ∧ (∀ sym, sym ∈ syms ↔ freqOf freq sym ≠ 0#32) ∧ syms.length = n ∧
        ∀ k : NodeIdx, k.val < n →
          a.node[k] = .leaf (syms.getD k.val 0#8) ((freqOf freq (syms.getD k.val 0#8)).setWidth 40)) ∧
      (∀ k : NodeIdx, n ≤ k.val → k.val ≤ 2 * n - 2 → ∃ l r, l < k ∧ r < k ∧
        a.node[k] = .internal l r (a.node[l].freq + a.node[r].freq) ∧
        a.node[k].freq.toNat = a.node[l].freq.toNat + a.node[r].freq.toNat) ∧
      a.node[a.root].freq.toNat = ((alphabet freq).map (fun sym => (freqOf freq sym).toNat)).sum

/-- 41_tree_builder.md R125: the tree is a function of FREQ alone. -/
def Obligations.BuildDependsOnFreqAlone : Prop :=
  ∀ s s' t t' : State, s.freq = s'.freq → exec .build s = .next t → exec .build s' = .next t' →
    t.treeValid = t'.treeValid ∧ (t.treeValid = true → t.arena.tree = t'.arena.tree)

/-- 41_tree_builder.md R125: the tree minimises the weighted sum of leaf depths over all full binary trees with the same
leaf set. -/
def Obligations.BuiltTreeIsOptimal : Prop :=
  ∀ (s t : State) (tr : HuffTree), exec .build s = .next t → t.treeValid = true → t.arena.tree = some tr →
    ∀ other : HuffTree, other.symbols.Nodup → (∀ sym, sym ∈ other.symbols ↔ freqOf s.freq sym ≠ 0#32) →
      tr.cost s.freq ≤ other.cost s.freq

/-! ## CodeGenerator -/

/-- 42_code_generator.md R141, R142: GENCODES gives each leaf its path, a single leaf the code "0", every other symbol
length 0, every bit past a code 0, sets CODES_VALID, and completes with (NLEAVES, MAXLEN). -/
def Obligations.GencodesGivesEachLeafItsPath : Prop :=
  ∀ (s : State) (tr : HuffTree), s.treeValid = true → HoldsTree s.arena tr →
    ∃ t, exec .gencodes s = .next t ∧
      (∀ sym p, (sym, p) ∈ tr.codes → (codeOf t.code sym).path = p) ∧
      (∀ sym, sym ∉ tr.symbols → (codeOf t.code sym).len = 0#8) ∧
      (∀ sym k, (codeOf t.code sym).len.toNat ≤ k → (codeOf t.code sym).bits.getLsbD k = false) ∧
      t.codesValid = true ∧ Succeeded s t (s.arena.nleaves.setWidth 32) ((maxLen t.code).setWidth 32) ∧
      KeepsFreq s t ∧ KeepsTree s t ∧ KeepsMemory s t ∧ KeepsControl s t

/-- 10_state.md R44: whenever CODES_VALID = 1, a symbol has a code exactly when it is a leaf's, no code is a prefix of
another symbol's (so codes are distinct), MAXLEN is the longest length, and the Kraft sum, scaled by 2^255, is 1, or 1/2
for one leaf. The spec marks R44 as its own inference ("[derived: from 42_code_generator.md rule R142 and rule R41]"). -/
def Obligations.CodeTableIsACompletePrefixCode : Prop :=
  ∀ (s : State) (tr : HuffTree), CodesLegal s → s.codesValid = true → s.arena.tree = some tr →
    (∀ sym, 1 ≤ (codeOf s.code sym).len.toNat ↔ sym ∈ tr.symbols) ∧
    (∀ x ∈ tr.symbols, ∀ y ∈ tr.symbols, x ≠ y → ¬ (codeOf s.code x).path <+: (codeOf s.code y).path) ∧
    (∀ sym, (codeOf s.code sym).len ≤ maxLen s.code) ∧ (∃ sym, (codeOf s.code sym).len = maxLen s.code) ∧
    (tr.symbols.map (fun sym => 2 ^ (255 - (codeOf s.code sym).len.toNat))).sum =
      if 2 ≤ s.arena.nleaves.toNat then 2 ^ 255 else 2 ^ 254

/-- 42_code_generator.md R144: RDCODE writes the 32-byte code image, bit 8k + j of the code at position 7 - j of byte k,
zero padded, and completes with (len, 0); a symbol with no code writes 32 zero bytes. -/
def Obligations.RdcodeWritesTheCodeImage : Prop :=
  ∀ (s : State) (sym : Sym), RdcodeReady s →
    ∃ t, exec (.rdcode sym) s = .next t ∧
      (∀ k j, k < 32 → j < 8 → (byteAt t s.larg2 k).getLsbD (7 - j) =
        (decide (8 * k + j < (codeOf s.code sym).len.toNat) && (codeOf s.code sym).bits.getLsbD (8 * k + j))) ∧
      Succeeded s t ((codeOf s.code sym).len.setWidth 32) 0#32 ∧ KeepsMemoryOutside s.larg2 32 s t ∧
      KeepsTables s t ∧ KeepsControl s t

/-- 70_reset_and_hazards.md R265: GENCODES, SAVE and DECODE without a tree raise NoTree(0, 0), RDCODE and ENCODE without
codes raise NoCodes(0, 0), and nothing else changes. -/
def Obligations.MissingTreeOrCodesIsRaised : Prop :=
  ∀ s : State,
    (s.treeValid = false → ∀ i, i = .gencodes ∨ i = .save ∨ i = .decode →
      ∃ t, exec i s = .next t ∧ Raised s t ⟨.noTree, 0#32, 0#11⟩ ∧ KeepsTables s t ∧ KeepsMemory s t ∧
        KeepsControl s t) ∧
    (s.codesValid = false → ∀ i sym, i = .rdcode sym ∨ i = .encode →
      ∃ t, exec i s = .next t ∧ Raised s t ⟨.noCodes, 0#32, 0#11⟩ ∧ KeepsTables s t ∧ KeepsMemory s t ∧
        KeepsControl s t)

/-! ## TreeCodec -/

/-- 43_tree_codec.md R160: a tree of L leaves serializes to 3L - 1 bytes, and the format is self-delimiting; the spec marks
both facts as its own inference ("[derived: the grammar is prefix-free …]"). -/
def Obligations.SerializationIsSelfDelimiting : Prop :=
  (∀ t : HuffTree, t.serialize.length = 3 * t.symbols.length - 1) ∧
    ∀ (t u : HuffTree) (x y : List Byte), t.serialize ++ x = u.serialize ++ y → t = u ∧ x = y

/-- 43_tree_codec.md R161, R162: SAVE writes exactly the tree's preorder at dst, in 3 * NLEAVES - 1 bytes, nothing else,
and completes with (size, NLEAVES). -/
def Obligations.SaveWritesThePreorder : Prop :=
  ∀ (s : State) (tr : HuffTree), SaveReady s tr →
    ∃ t, exec .save s = .next t ∧ regionBytes t s.larg2 (3 * tr.symbols.length - 1) = tr.serialize ∧
      Succeeded s t (BitVec.ofNat 32 (3 * tr.symbols.length - 1)) (BitVec.ofNat 32 tr.symbols.length) ∧
      KeepsMemoryOutside s.larg2 (3 * tr.symbols.length - 1) s t ∧ KeepsTables s t ∧ KeepsControl s t

/-- 60_exceptions.md R234, 42_code_generator.md R144, 43_tree_codec.md R161, 45_decoder_unpacker.md R213: with their
precondition met and legal regions, RDCODE raises OutputOverflow(32, 0) below 32 bytes of capacity, SAVE raises
OutputOverflow(3 * NLEAVES - 1, 0) below its size, and DECODE raises OutputOverflow(k, 0) at the bit k that ends the code of
symbol cap + 1; nothing is written. (ENCODE's is in EncodeReportsTheFirstBadByte.) -/
def Obligations.OutputsTooLargeAreRefused : Prop :=
  ∀ s : State,
    let refused := fun (i : Instr) (pos : Word) =>
      ∃ t, exec i s = .next t ∧ Raised s t ⟨.outputOverflow, pos, 0#11⟩ ∧ KeepsMemory s t ∧ KeepsTables s t ∧
        KeepsControl s t
    (∀ sym, s.codesValid = true → s.larg2.toNat + 32 ≤ 2 ^ 32 → s.larg3.toNat < 32 → refused (.rdcode sym) 32#32) ∧
    (s.treeValid = true → (destRegion .save s).Fits → s.larg3.toNat < 3 * s.arena.nleaves.toNat - 1 →
      refused .save (BitVec.ofNat 32 (3 * s.arena.nleaves.toNat - 1))) ∧
    (∀ (tr : HuffTree) (symbols : List Sym) (last : Sym), s.treeValid = true → HoldsTree s.arena tr →
      RegionsLegal .decode s → (∀ x ∈ symbols ++ [last], x ∈ tr.symbols) → symbols.length = s.larg3.toNat →
      let n := (tr.encodeAll (symbols ++ [last])).length
      n ≤ s.larg1.toNat → NoBusError s s.larg0 (ceil8 n) .read →
      streamBits s s.larg0 n = tr.encodeAll (symbols ++ [last]) → refused .decode (BitVec.ofNat 32 (n - 1)))

/-- 43_tree_codec.md R167 to R169: LOAD of a stream that begins with a serialized tree of distinct symbols rebuilds that
tree, its nodes in preorder from index 0 with every freq 0, consumes exactly its bytes, and completes with (bytes, leaves). -/
def Obligations.LoadRebuildsASerializedTree : Prop :=
  ∀ (s : State) (tr : HuffTree), LoadReady s tr →
    ∃ t, exec .load s = .next t ∧ HoldsTree t.arena tr ∧ t.arena.root = 0 ∧
      t.arena.node.toList.take (2 * tr.symbols.length - 1) = tr.preorderNodes 0 ∧
      t.treeValid = true ∧ t.codesValid = false ∧
      Succeeded s t (BitVec.ofNat 32 tr.serialize.length) (BitVec.ofNat 32 tr.symbols.length) ∧
      KeepsFreq s t ∧ KeepsMemory s t ∧ KeepsControl s t

/-- 43_tree_codec.md R163, R169 (which the spec marks as its own inference, "Round trips [derived: …]"): a LOAD that
completes without error read exactly the serialization of the tree it left. -/
def Obligations.LoadAcceptsOnlySerializedTrees : Prop :=
  ∀ s t : State, exec .load s = .next t → t.err = 0#4 →
    ∃ tr, HoldsTree t.arena tr ∧ tr.serialize.length ≤ s.larg1.toNat ∧
      t.result0 = BitVec.ofNat 32 tr.serialize.length ∧
      regionBytes s s.larg0 tr.serialize.length = tr.serialize

/-- 43_tree_codec.md R163, R164, R166, R167: MalformedTree with its offset and detail, wherever the stream goes wrong. After
any nodes that begin some serialized tree without finishing it, distinct leaf symbols among them, a stream fails: at its end
(truncated), at a tag above 0x01 (bad tag and the byte), at a leaf tag that ends it (truncated), at the symbol of an earlier
leaf (duplicate and the symbol), and at the tag of a 512th node (too many nodes); and with IoFailure(addr, 0) where the read
of the tag, or of the symbol, is the first that fails (20_memory.md R64). Every failure drops the old tree. -/
def Obligations.LoadReportsMalformedStreams : Prop :=
  ∀ (s : State) (tr : HuffTree) (done rest : List (Option Sym)), (sourceRegion .load s).Fits →
    tr.tokens = done ++ rest → rest ≠ [] → (done.filterMap id).Nodup → done.length ≤ 511 →
    let n := (done.flatMap tokenBytes).length
    let readable := fun k => s.platform.busError (addrAt s.larg0 k) .read = false
    n ≤ s.larg1.toNat → regionBytes s s.larg0 n = done.flatMap tokenBytes → NoBusError s s.larg0 n .read →
    let fails := fun e : CmdError =>
      ∃ t, exec .load s = .next t ∧ Raised s t e ∧ t.treeValid = false ∧ t.codesValid = false ∧ KeepsFreq s t ∧
        KeepsMemory s t ∧ KeepsControl s t
    let malformed := fun (pos : Nat) (data : BitVec 11) => fails ⟨.malformedTree, BitVec.ofNat 32 pos, data⟩
    (s.larg1.toNat = n → malformed n 0x100#11) ∧
    (n < s.larg1.toNat → done.length = 511 → malformed n 0x400#11) ∧
    (n < s.larg1.toNat → done.length ≤ 510 →
      (¬ readable n → fails ⟨.ioFailure, addrAt s.larg0 n, 0#11⟩) ∧
      (readable n → 0x01#8 < byteAt s s.larg0 n → malformed n (2#3 ++ byteAt s s.larg0 n)) ∧
      (readable n → byteAt s s.larg0 n = 0x01#8 →
        (s.larg1.toNat = n + 1 → malformed (n + 1) 0x100#11) ∧
        (n + 2 ≤ s.larg1.toNat → ¬ readable (n + 1) → fails ⟨.ioFailure, addrAt s.larg0 (n + 1), 0#11⟩) ∧
        (n + 2 ≤ s.larg1.toNat → readable (n + 1) → some (byteAt s s.larg0 (n + 1)) ∈ done →
          malformed (n + 1) (3#3 ++ byteAt s s.larg0 (n + 1)))))

/-! ## Encoder -/

/-- 44_encoder_packer.md R190, R192: the packer's stream of n bits is ceil8(n) bytes, bit b_k at byte k div 8, position
7 - (k mod 8), and its padding bits are 0. -/
def Obligations.PackerLaysOutBitsInOrder : Prop :=
  ∀ bits : List Bool, (packBits bits).length = (bits.length + 7) / 8 ∧
    ∀ k, k < 8 * (packBits bits).length →
      ((packBits bits).getD (k / 8) 0#8).getLsbD (7 - k % 8) = bits.getD k false

/-- 44_encoder_packer.md R190, R193, R194: ENCODE writes the packed stream of its source symbols' codes, nothing else, and
completes with (ceil8(NBITS), NBITS). The spec marks R194, that no other byte changes, as its own inference ("[derived: from
rules R190, R192 and R193]"). -/
def Obligations.EncodeWritesThePackedStream : Prop :=
  ∀ s : State, EncodeReady s →
    let n := (encodedBits s).length
    ∃ t, exec .encode s = .next t ∧ streamBits t s.larg2 n = encodedBits s ∧
      (∀ k, n ≤ k → k < 8 * ceil8 n → streamBit t s.larg2 k = false) ∧
      Succeeded s t (BitVec.ofNat 32 (ceil8 n)) (BitVec.ofNat 32 n) ∧ KeepsMemoryOutside s.larg2 (ceil8 n) s t ∧
      KeepsTables s t ∧ KeepsControl s t

/-- 44_encoder_packer.md R193: pass 1 of ENCODE reports the lowest offset i that fails: IoFailure(addr, 0) when the read of
the byte gets a bus error, UnknownSymbol(i, b) when the byte has no code, or OutputOverflow(i, 0) when the running bit total
exceeds 8 * cap or 2^32 - 1; nothing is written. -/
def Obligations.EncodeReportsTheFirstBadByte : Prop :=
  ∀ (s : State) (i : Nat), s.codesValid = true → RegionsLegal .encode s → i < s.larg1.toNat →
    NoBusError s s.larg0 i .read →
    let total := fun k => (codeBits s.code (regionBytes s s.larg0 k)).length
    let limit := min (8 * s.larg3.toNat) (2 ^ 32 - 1)
    let b := byteAt s s.larg0 i
    let fails := fun e : CmdError =>
      ∃ t, exec .encode s = .next t ∧ Raised s t e ∧ KeepsMemory s t ∧ KeepsTables s t ∧ KeepsControl s t
    (∀ k, k < i → (codeOf s.code (byteAt s s.larg0 k)).len ≠ 0#8) → total i ≤ limit →
    (s.platform.busError (addrAt s.larg0 i) .read = true → fails ⟨.ioFailure, addrAt s.larg0 i, 0#11⟩) ∧
    (s.platform.busError (addrAt s.larg0 i) .read = false →
      ((codeOf s.code b).len = 0#8 → fails ⟨.unknownSymbol, BitVec.ofNat 32 i, b.setWidth 11⟩) ∧
      ((codeOf s.code b).len ≠ 0#8 → limit < total (i + 1) → fails ⟨.outputOverflow, BitVec.ofNat 32 i, 0#11⟩))

/-! ## Decoder -/

/-- 45_decoder_unpacker.md R212 to R215: DECODE of the nbits that are the codes of a symbol sequence writes that sequence,
nothing else, and completes with (symbols, ceil8(nbits)); padding bits have no effect. -/
def Obligations.DecodeWritesTheSymbols : Prop :=
  ∀ (s : State) (tr : HuffTree) (symbols : List Sym), DecodeReady s tr symbols →
    ∃ t, exec .decode s = .next t ∧ regionBytes t s.larg2 symbols.length = symbols ∧
      Succeeded s t (BitVec.ofNat 32 symbols.length) (BitVec.ofNat 32 (ceil8 s.larg1.toNat)) ∧
      KeepsMemoryOutside s.larg2 symbols.length s t ∧ KeepsTables s t ∧ KeepsControl s t

/-- 45_decoder_unpacker.md R210, R213: after the codes of some symbols and the first bits p of another code, DECODE raises
TruncatedStream(nbits, depth) when the bits end there inside the code, depth being the length of p, and IoFailure(addr, 0)
when the next byte is the first whose read gets a bus error; nothing is written. -/
def Obligations.DecodeStopsWithinTheStream : Prop :=
  ∀ (s : State) (tr : HuffTree) (symbols : List Sym) (sym : Sym) (p q : List Bool), s.treeValid = true →
    HoldsTree s.arena tr → RegionsLegal .decode s → (∀ x ∈ symbols, x ∈ tr.symbols) →
    symbols.length ≤ s.larg3.toNat → q ≠ [] → (sym, p ++ q) ∈ tr.codes →
    let fails := fun e : CmdError =>
      ∃ t, exec .decode s = .next t ∧ Raised s t e ∧ KeepsMemory s t ∧ KeepsTables s t ∧ KeepsControl s t
    (p ≠ [] → NoBusError s s.larg0 (ceil8 s.larg1.toNat) .read →
      streamBits s s.larg0 s.larg1.toNat = tr.encodeAll symbols ++ p →
      fails ⟨.truncatedStream, s.larg1, BitVec.ofNat 11 p.length⟩) ∧
    (∀ j, 8 * j < s.larg1.toNat → NoBusError s s.larg0 j .read →
      s.platform.busError (addrAt s.larg0 j) .read = true →
      streamBits s s.larg0 (8 * j) = tr.encodeAll symbols ++ p → fails ⟨.ioFailure, addrAt s.larg0 j, 0#11⟩)

/-- 45_decoder_unpacker.md R211, R212: in a single-leaf tree a 1 bit moves through the absent right child: after k 0 bits
it raises CorruptStream(k, 1), and nothing is written. -/
def Obligations.SingleLeafOneBitIsCorrupt : Prop :=
  ∀ (s : State) (sym : Sym) (k : Nat), s.treeValid = true → s.arena.tree = some (.leaf sym) →
    RegionsLegal .decode s → NoBusError s s.larg0 (ceil8 s.larg1.toNat) .read → k < s.larg1.toNat →
    k ≤ s.larg3.toNat → (∀ j, j < k → streamBit s s.larg0 j = false) → streamBit s s.larg0 k = true →
    ∃ t, exec .decode s = .next t ∧ Raised s t ⟨.corruptStream, BitVec.ofNat 32 k, 1#11⟩ ∧ KeepsMemory s t ∧
      KeepsTables s t ∧ KeepsControl s t

/-- 45_decoder_unpacker.md R216: after an ENCODE that succeeded, DECODE of the bytes it wrote, with the bit count it
returned, the same tree and room for the symbols, succeeds and writes exactly the bytes encoded. The spec marks R216 as its
own inference ("Round trip [derived: …]"). -/
def Obligations.DecodeUndoesEncode : Prop :=
  ∀ s t u : State, MemoryLegal s → CodesLegal s → s.codesValid = true → exec .encode s = .next t → t.err = 0#4 →
    u.treeValid = true → u.arena = s.arena → u.mem = t.mem → u.larg0 = s.larg2 → u.larg1 = t.result1 →
    s.larg1.toNat ≤ u.larg3.toNat → RegionsLegal .decode u → NoBusError u u.larg0 t.result0.toNat .read →
    NoBusError u u.larg2 s.larg1.toNat .write →
    ∃ v, exec .decode u = .next v ∧ Succeeded u v s.larg1 t.result0 ∧
      regionBytes v u.larg2 s.larg1.toNat = regionBytes s s.larg0 s.larg1.toNat

/-! ## Rules of the whole machine -/

/-- 20_memory.md R66, R67: a wrapping source region raises BadRegion(base, 0); failing that, a wrapping destination raises
BadRegion(base, 1); failing that, overlapping source and destination raise BadRegion(destination, 2); regions that pass raise no BadRegion.
Every command with a region, its tree or codes being there; no memory changes. The premise TreeLegal is the invariant
below. -/
def Obligations.BadRegionsAreRefused : Prop :=
  ∀ (i : Instr) (s : State), TreeLegal s → CommandReady i s →
    let src := sourceRegion i s
    let dst := destRegion i s
    let refused := fun (base : Word) (data : BitVec 11) =>
      ∃ t, exec i s = .next t ∧ Raised s t ⟨.badRegion, base, data⟩ ∧ KeepsMemory s t
    (0 < src.len → 2 ^ 32 < src.base.toNat + src.len → refused src.base 0#11) ∧
    (src.Fits → 0 < dst.len → 2 ^ 32 < dst.base.toNat + dst.len → refused dst.base 1#11) ∧
    (src.Fits → dst.Fits → 0 < src.len → 0 < dst.len → src.base.toNat < dst.base.toNat + dst.len →
      dst.base.toNat < src.base.toNat + src.len → refused dst.base 2#11) ∧
    (src.Fits → dst.Fits → src.Apart dst → ∀ t, exec i s = .next t → t.err ≠ 11#4)

/-- 10_state.md R28: TREE_VALID: a successful BUILD or LOAD sets it, a failed one clears it, no other command changes it,
reset clears it, and every command keeps its meaning, that the arena holds a tree. -/
def Obligations.TreeValidFollowsBuildAndLoad : Prop :=
  ∀ (i : Instr) (s t : State), exec i s = .next t →
    ((i = .build ∨ i = .load) → t.treeValid = decide (t.err = 0#4)) ∧
    (i ≠ .build → i ≠ .load → t.treeValid = s.treeValid) ∧
    (TreeLegal s → TreeLegal t) ∧ (resetEvent s).treeValid = false

/-- 10_state.md R29: CODES_VALID: a successful GENCODES sets it, every BUILD or LOAD clears it, no other command changes
it, reset clears it, and every command keeps its meaning, that CODE holds the codes of the current tree; a failed GENCODES
leaves it (42_code_generator.md R141). -/
def Obligations.CodesValidFollowsGencodes : Prop :=
  ∀ (i : Instr) (s t : State), exec i s = .next t →
    (i = .gencodes → t.codesValid = (if t.err = 0#4 then true else s.codesValid)) ∧
    ((i = .build ∨ i = .load) → t.codesValid = false) ∧
    (i ≠ .gencodes → i ≠ .build → i ≠ .load → t.codesValid = s.codesValid) ∧
    (TreeLegal s → CodesLegal s → CodesLegal t) ∧ (resetEvent s).codesValid = false

/-- 10_state.md R47 ("Summary of writers [derived: …]", the spec's own inference): which state each command leaves alone, and
that none writes CTRL, CMDLOST or ARG0 to ARG3 (R30, R32, R33). -/
def Obligations.CommandsWriteOnlyTheirState : Prop :=
  ∀ (i : Instr) (s t : State), exec i s = .next t →
    KeepsControl s t ∧
    ((∀ sym, i ≠ .setfreq sym) → i ≠ .clrfreq → i ≠ .ldfreq → KeepsFreq s t) ∧
    (i ≠ .build → i ≠ .load → KeepsTree s t) ∧
    (i ≠ .gencodes → i ≠ .build → i ≠ .load → t.code = s.code) ∧
    ((∀ sym, i ≠ .rdcode sym) → i ≠ .encode → i ≠ .decode → i ≠ .save → KeepsMemory s t)

/-- 20_memory.md R63: the engine writes no address outside the destination region its command's rule names. The premise
TreeLegal is the invariant below. -/
def Obligations.CommandsWriteOnlyTheirDestination : Prop :=
  ∀ (i : Instr) (s t : State), TreeLegal s → exec i s = .next t →
    KeepsMemoryOutside (destRegion i s).base (destRegion i s).len s t

/-- 60_exceptions.md R230, R231, R234, 20_memory.md R64: the first write of RDCODE, ENCODE, DECODE or SAVE that gets a bus
error raises IoFailure(addr, 1): when the command succeeds on a platform with no bus error, and none of its reads gets one.
R237 (marked "[derived: …]" there): after an error completion the shared memory is unchanged, except after IoFailure on a
write: then the bytes below the failing address hold what the command writes with no bus error, and the bytes above it are
unchanged. The premise TreeLegal is the invariant below. (First failing reads: LdfreqFailureKeepsTheTable,
LoadReportsMalformedStreams, EncodeReportsTheFirstBadByte, DecodeStopsWithinTheStream.) -/
def Obligations.ErrorsLeaveMemoryAlone : Prop :=
  ∀ (i : Instr) (s u : State), TreeLegal s →
    exec i { s with platform := { s.platform with busErrors := [] } } = .next u →
    (∀ k, u.err = 0#4 → NoBusError s (sourceRegion i s).base (sourceRegion i s).len .read →
      k < (destRegion i s).len → ((∀ sym, i ≠ .rdcode sym) → k < u.result0.toNat) →
      NoBusError s (destRegion i s).base k .write →
      s.platform.busError (addrAt (destRegion i s).base k) .write = true →
      ∃ t, exec i s = .next t ∧ Raised s t ⟨.ioFailure, addrAt (destRegion i s).base k, 1#11⟩ ∧ KeepsTables s t ∧
        KeepsControl s t) ∧
    (∀ t, exec i s = .next t → t.err ≠ 0#4 →
      (t.err ≠ 6#4 ∨ t.errData ≠ 1#32 → KeepsMemory s t) ∧
      (t.err = 6#4 → t.errData = 1#32 →
        (∀ a : Addr, a < t.errPos → t.mem.read a = u.mem.read a) ∧
        (∀ a : Addr, t.errPos < a → t.mem.read a = s.mem.read a)))

/-- 70_reset_and_hazards.md R275, 60_exceptions.md R232: every command completes, with success or one error, ENG = IDLE
and DONE = 1; only the BUILD of an unwritten table does not (R266). The premise TreeLegal is the invariant below. -/
def Obligations.EveryCommandCompletes : Prop :=
  ∀ (i : Instr) (s : State), TreeLegal s → (i = .build → s.freqWritten = true) →
    ∃ t, exec i s = .next t ∧ t.eng = .idle ∧ t.done = true ∧ t.err ≤ 11#4

/-! ## Invariants -/

/-- Model's own: every step keeps the memory in canonical form (the form is the model's, notes/assumptions/3.md). -/
def Obligations.StepKeepsMemoryCanonical : Prop :=
  ∀ s t : State, MemoryLegal s → step s = .next t → MemoryLegal t

/-- 10_state.md R27, R31, R34, R35, 60_exceptions.md R230: every step keeps the status, result and error registers
consistent. -/
def Obligations.StepKeepsStatusConsistent : Prop :=
  ∀ s t : State, StatusLegal s → step s = .next t → StatusLegal t

/-- 10_state.md R28, R41: every step keeps this: whenever TREE_VALID = 1, the arena holds a full tree with distinct leaf
symbols and NLEAVES leaves. -/
def Obligations.StepKeepsTheTreeSound : Prop :=
  ∀ s t : State, TreeLegal s → step s = .next t → TreeLegal t

/-- 10_state.md R29: every step keeps this: whenever CODES_VALID = 1, so is TREE_VALID and CODE is the code table of the
current tree. -/
def Obligations.StepKeepsTheCodesCurrent : Prop :=
  ∀ s t : State, TreeLegal s → CodesLegal s → step s = .next t → CodesLegal t

/-- 10_state.md R48: the state after reset, on any platform and with any inputs to come, meets every invariant. -/
def Obligations.ResetIsLegal : Prop :=
  ∀ (p : Platform) (inputs : List Input), Legal { State.reset with platform := p, inputs := inputs }

/-- 10_state.md R28, R41: no step from a state that meets the invariants finds an arena that holds no tree (the model's
fault, notes/assumptions/17.md). -/
def Obligations.LegalStatesHoldTheirTree : Prop :=
  ∀ s : State, Legal s → step s ≠ .fault .arenaHoldsNoTree

/-- 10_state.md R41(e), (f) (which R41 marks as derived from (a)): a held tree has 1 to 256 leaves, and depth at most NLEAVES - 1, so at most 255. -/
def Obligations.TreeDepthIsBounded : Prop :=
  ∀ (a : Arena) (t : HuffTree), HoldsTree a t →
    1 ≤ a.nleaves.toNat ∧ a.nleaves.toNat ≤ 256 ∧ t.depth ≤ a.nleaves.toNat - 1 ∧ t.depth ≤ 255
end

