-- ==== Sys2Proof/Laws/HuffTree.lean ====
section
/-! SUPPORT. Small facts of the tree type. -/

namespace Sys2Proof.Machine

@[simp] theorem HuffTree.symbols_leaf (sym : Sym) : (HuffTree.leaf sym).symbols = [sym] := rfl

@[simp] theorem HuffTree.symbols_node (l r : HuffTree) : (HuffTree.node l r).symbols = l.symbols ++ r.symbols := rfl

@[simp] theorem HuffTree.serialize_leaf (sym : Sym) : (HuffTree.leaf sym).serialize = [0x01#8, sym] := rfl

@[simp] theorem HuffTree.serialize_node (l r : HuffTree) :
    (HuffTree.node l r).serialize = 0x00#8 :: (l.serialize ++ r.serialize) := rfl

/-- A tree has at least one leaf. -/
theorem HuffTree.symbols_length_pos (t : HuffTree) : 0 < t.symbols.length := by
  induction t with
  | leaf => simp
  | node l r ihl _ => simp; omega

/-- The leaves' paths list the leaf symbols, in the same order. -/
theorem HuffTree.leafPaths_symbols (t : HuffTree) (p : List Bool) : (t.leafPaths p).map Prod.fst = t.symbols := by
  induction t generalizing p with
  | leaf => rfl
  | node l r ihl ihr => simp [HuffTree.leafPaths, ihl, ihr]

/-- The codes list the leaf symbols, in the same order. -/
theorem HuffTree.codes_symbols (t : HuffTree) : t.codes.map Prod.fst = t.symbols := by
  cases t with
  | leaf => rfl
  | node l r => exact HuffTree.leafPaths_symbols _ []

@[simp] theorem HuffTree.tokens_leaf (sym : Sym) : (HuffTree.leaf sym).tokens = [some sym] := rfl

@[simp] theorem HuffTree.tokens_node (l r : HuffTree) :
    (HuffTree.node l r).tokens = none :: (l.tokens ++ r.tokens) := rfl

/-- The serialization is the bytes of the nodes, in preorder (43_tree_codec.md R160). -/
theorem HuffTree.serialize_eq_tokens (t : HuffTree) : t.serialize = t.tokens.flatMap tokenBytes := by
  induction t with
  | leaf => rfl
  | node l r ihl ihr => simp [tokenBytes, ihl, ihr]

/-- A tree of L leaves has 2L - 1 nodes. -/
theorem HuffTree.tokens_length (t : HuffTree) : t.tokens.length = 2 * t.symbols.length - 1 := by
  induction t with
  | leaf => rfl
  | node l r ihl ihr =>
    have := l.symbols_length_pos
    have := r.symbols_length_pos
    simp [ihl, ihr]
    omega

/-- LOAD's arena has one entry for each node. -/
theorem HuffTree.preorderNodes_length (t : HuffTree) (k : Nat) : (t.preorderNodes k).length = t.tokens.length := by
  induction t generalizing k with
  | leaf => rfl
  | node l r ihl ihr => simp [HuffTree.preorderNodes, ihl, ihr]

/-- A deeper search finds the same tree. -/
theorem treeBelow_mono {node : Vector Node 511} {m n : Nat} (h : m ≤ n) {i : NodeIdx} {t : HuffTree}
    (ht : treeBelow node m i = some t) : treeBelow node n i = some t := by
  induction m generalizing n i t with
  | zero => simp [treeBelow] at ht
  | succ m ih =>
    obtain ⟨n, rfl⟩ : ∃ k, n = k + 1 := ⟨n - 1, by omega⟩
    unfold treeBelow at ht ⊢
    split at ht
    · exact ht
    · split at ht
      · rename_i hl hr
        rw [ih (by omega) hl, ih (by omega) hr]
        exact ht
      · cases ht

end Sys2Proof.Machine
end

