-- ==== Sys2Proof/Laws/State.lean ====
section
/-! SUPPORT. One lemma per field per named update of State, so that no proof unfolds a record update. -/

namespace Sys2Proof.Machine

variable (s : State)

/-! ## State.complete -/

@[simp] theorem State.complete_eng (r0 r1 : Word) : (s.complete r0 r1).eng = .idle := rfl
@[simp] theorem State.complete_lcmd (r0 r1 : Word) : (s.complete r0 r1).lcmd = Config.freeWord s.freeCount := rfl
@[simp] theorem State.complete_larg0 (r0 r1 : Word) : (s.complete r0 r1).larg0 = Config.freeWord (s.freeCount + 1) := rfl
@[simp] theorem State.complete_larg1 (r0 r1 : Word) : (s.complete r0 r1).larg1 = Config.freeWord (s.freeCount + 2) := rfl
@[simp] theorem State.complete_larg2 (r0 r1 : Word) : (s.complete r0 r1).larg2 = Config.freeWord (s.freeCount + 3) := rfl
@[simp] theorem State.complete_larg3 (r0 r1 : Word) : (s.complete r0 r1).larg3 = Config.freeWord (s.freeCount + 4) := rfl
@[simp] theorem State.complete_done (r0 r1 : Word) : (s.complete r0 r1).done = true := rfl
@[simp] theorem State.complete_treeValid (r0 r1 : Word) : (s.complete r0 r1).treeValid = s.treeValid := rfl
@[simp] theorem State.complete_codesValid (r0 r1 : Word) : (s.complete r0 r1).codesValid = s.codesValid := rfl
@[simp] theorem State.complete_cmdLost (r0 r1 : Word) : (s.complete r0 r1).cmdLost = s.cmdLost := rfl
@[simp] theorem State.complete_err (r0 r1 : Word) : (s.complete r0 r1).err = 0#4 := rfl
@[simp] theorem State.complete_ie (r0 r1 : Word) : (s.complete r0 r1).ie = s.ie := rfl
@[simp] theorem State.complete_arg0 (r0 r1 : Word) : (s.complete r0 r1).arg0 = s.arg0 := rfl
@[simp] theorem State.complete_arg1 (r0 r1 : Word) : (s.complete r0 r1).arg1 = s.arg1 := rfl
@[simp] theorem State.complete_arg2 (r0 r1 : Word) : (s.complete r0 r1).arg2 = s.arg2 := rfl
@[simp] theorem State.complete_arg3 (r0 r1 : Word) : (s.complete r0 r1).arg3 = s.arg3 := rfl
@[simp] theorem State.complete_result0 (r0 r1 : Word) : (s.complete r0 r1).result0 = r0 := rfl
@[simp] theorem State.complete_result1 (r0 r1 : Word) : (s.complete r0 r1).result1 = r1 := rfl
@[simp] theorem State.complete_errPos (r0 r1 : Word) : (s.complete r0 r1).errPos = s.errPos := rfl
@[simp] theorem State.complete_errData (r0 r1 : Word) : (s.complete r0 r1).errData = s.errData := rfl
@[simp] theorem State.complete_freq (r0 r1 : Word) : (s.complete r0 r1).freq = s.freq := rfl
@[simp] theorem State.complete_fw (r0 r1 : Word) : (s.complete r0 r1).fw = s.fw := rfl
@[simp] theorem State.complete_arena (r0 r1 : Word) : (s.complete r0 r1).arena = s.arena := rfl
@[simp] theorem State.complete_code (r0 r1 : Word) : (s.complete r0 r1).code = s.code := rfl
@[simp] theorem State.complete_mem (r0 r1 : Word) : (s.complete r0 r1).mem = s.mem := rfl
@[simp] theorem State.complete_platform (r0 r1 : Word) : (s.complete r0 r1).platform = s.platform := rfl
@[simp] theorem State.complete_inputs (r0 r1 : Word) : (s.complete r0 r1).inputs = s.inputs := rfl
@[simp] theorem State.complete_response (r0 r1 : Word) : (s.complete r0 r1).response = s.response := rfl
@[simp] theorem State.complete_unobserved (r0 r1 : Word) : (s.complete r0 r1).unobserved = s.latchedRegions ++ s.unobserved := rfl
@[simp] theorem State.complete_freeCount (r0 r1 : Word) : (s.complete r0 r1).freeCount = s.freeCount + 5 := rfl

/-! ## State.raiseError -/

@[simp] theorem State.raiseError_eng (e : CmdError) : (s.raiseError e).eng = .idle := rfl
@[simp] theorem State.raiseError_lcmd (e : CmdError) : (s.raiseError e).lcmd = Config.freeWord s.freeCount := rfl
@[simp] theorem State.raiseError_larg0 (e : CmdError) : (s.raiseError e).larg0 = Config.freeWord (s.freeCount + 1) := rfl
@[simp] theorem State.raiseError_larg1 (e : CmdError) : (s.raiseError e).larg1 = Config.freeWord (s.freeCount + 2) := rfl
@[simp] theorem State.raiseError_larg2 (e : CmdError) : (s.raiseError e).larg2 = Config.freeWord (s.freeCount + 3) := rfl
@[simp] theorem State.raiseError_larg3 (e : CmdError) : (s.raiseError e).larg3 = Config.freeWord (s.freeCount + 4) := rfl
@[simp] theorem State.raiseError_done (e : CmdError) : (s.raiseError e).done = true := rfl
@[simp] theorem State.raiseError_treeValid (e : CmdError) : (s.raiseError e).treeValid = s.treeValid := rfl
@[simp] theorem State.raiseError_codesValid (e : CmdError) : (s.raiseError e).codesValid = s.codesValid := rfl
@[simp] theorem State.raiseError_cmdLost (e : CmdError) : (s.raiseError e).cmdLost = s.cmdLost := rfl
@[simp] theorem State.raiseError_err (e : CmdError) : (s.raiseError e).err = e.kind.code := rfl
@[simp] theorem State.raiseError_ie (e : CmdError) : (s.raiseError e).ie = s.ie := rfl
@[simp] theorem State.raiseError_arg0 (e : CmdError) : (s.raiseError e).arg0 = s.arg0 := rfl
@[simp] theorem State.raiseError_arg1 (e : CmdError) : (s.raiseError e).arg1 = s.arg1 := rfl
@[simp] theorem State.raiseError_arg2 (e : CmdError) : (s.raiseError e).arg2 = s.arg2 := rfl
@[simp] theorem State.raiseError_arg3 (e : CmdError) : (s.raiseError e).arg3 = s.arg3 := rfl
@[simp] theorem State.raiseError_result0 (e : CmdError) : (s.raiseError e).result0 = s.result0 := rfl
@[simp] theorem State.raiseError_result1 (e : CmdError) : (s.raiseError e).result1 = s.result1 := rfl
@[simp] theorem State.raiseError_errPos (e : CmdError) : (s.raiseError e).errPos = e.pos := rfl
@[simp] theorem State.raiseError_errData (e : CmdError) : (s.raiseError e).errData = e.data.setWidth 32 := rfl
@[simp] theorem State.raiseError_freq (e : CmdError) : (s.raiseError e).freq = s.freq := rfl
@[simp] theorem State.raiseError_fw (e : CmdError) : (s.raiseError e).fw = s.fw := rfl
@[simp] theorem State.raiseError_arena (e : CmdError) : (s.raiseError e).arena = s.arena := rfl
@[simp] theorem State.raiseError_code (e : CmdError) : (s.raiseError e).code = s.code := rfl
@[simp] theorem State.raiseError_mem (e : CmdError) : (s.raiseError e).mem = s.mem := rfl
@[simp] theorem State.raiseError_platform (e : CmdError) : (s.raiseError e).platform = s.platform := rfl
@[simp] theorem State.raiseError_inputs (e : CmdError) : (s.raiseError e).inputs = s.inputs := rfl
@[simp] theorem State.raiseError_response (e : CmdError) : (s.raiseError e).response = s.response := rfl
@[simp] theorem State.raiseError_unobserved (e : CmdError) : (s.raiseError e).unobserved = s.latchedRegions ++ s.unobserved := rfl
@[simp] theorem State.raiseError_freeCount (e : CmdError) : (s.raiseError e).freeCount = s.freeCount + 5 := rfl

/-! ## State.issue -/

@[simp] theorem State.issue_eng (w : Word) : (s.issue w).eng = .busy := rfl
@[simp] theorem State.issue_lcmd (w : Word) : (s.issue w).lcmd = w := rfl
@[simp] theorem State.issue_larg0 (w : Word) : (s.issue w).larg0 = s.arg0 := rfl
@[simp] theorem State.issue_larg1 (w : Word) : (s.issue w).larg1 = s.arg1 := rfl
@[simp] theorem State.issue_larg2 (w : Word) : (s.issue w).larg2 = s.arg2 := rfl
@[simp] theorem State.issue_larg3 (w : Word) : (s.issue w).larg3 = s.arg3 := rfl
@[simp] theorem State.issue_done (w : Word) : (s.issue w).done = false := rfl
@[simp] theorem State.issue_treeValid (w : Word) : (s.issue w).treeValid = s.treeValid := rfl
@[simp] theorem State.issue_codesValid (w : Word) : (s.issue w).codesValid = s.codesValid := rfl
@[simp] theorem State.issue_cmdLost (w : Word) : (s.issue w).cmdLost = s.cmdLost := rfl
@[simp] theorem State.issue_err (w : Word) : (s.issue w).err = 0#4 := rfl
@[simp] theorem State.issue_ie (w : Word) : (s.issue w).ie = s.ie := rfl
@[simp] theorem State.issue_arg0 (w : Word) : (s.issue w).arg0 = s.arg0 := rfl
@[simp] theorem State.issue_arg1 (w : Word) : (s.issue w).arg1 = s.arg1 := rfl
@[simp] theorem State.issue_arg2 (w : Word) : (s.issue w).arg2 = s.arg2 := rfl
@[simp] theorem State.issue_arg3 (w : Word) : (s.issue w).arg3 = s.arg3 := rfl
@[simp] theorem State.issue_result0 (w : Word) : (s.issue w).result0 = 0#32 := rfl
@[simp] theorem State.issue_result1 (w : Word) : (s.issue w).result1 = 0#32 := rfl
@[simp] theorem State.issue_errPos (w : Word) : (s.issue w).errPos = 0#32 := rfl
@[simp] theorem State.issue_errData (w : Word) : (s.issue w).errData = 0#32 := rfl
@[simp] theorem State.issue_freq (w : Word) : (s.issue w).freq = s.freq := rfl
@[simp] theorem State.issue_fw (w : Word) : (s.issue w).fw = s.fw := rfl
@[simp] theorem State.issue_arena (w : Word) : (s.issue w).arena = s.arena := rfl
@[simp] theorem State.issue_code (w : Word) : (s.issue w).code = s.code := rfl
@[simp] theorem State.issue_mem (w : Word) : (s.issue w).mem = s.mem := rfl
@[simp] theorem State.issue_platform (w : Word) : (s.issue w).platform = s.platform := rfl
@[simp] theorem State.issue_inputs (w : Word) : (s.issue w).inputs = s.inputs := rfl
@[simp] theorem State.issue_response (w : Word) : (s.issue w).response = s.response := rfl
@[simp] theorem State.issue_unobserved (w : Word) : (s.issue w).unobserved = s.unobserved := rfl
@[simp] theorem State.issue_freeCount (w : Word) : (s.issue w).freeCount = s.freeCount := rfl

/-! ## State.writeFreq -/

@[simp] theorem State.writeFreq_eng (sym : Sym) (f : Word) : (s.writeFreq sym f).eng = s.eng := rfl
@[simp] theorem State.writeFreq_lcmd (sym : Sym) (f : Word) : (s.writeFreq sym f).lcmd = s.lcmd := rfl
@[simp] theorem State.writeFreq_larg0 (sym : Sym) (f : Word) : (s.writeFreq sym f).larg0 = s.larg0 := rfl
@[simp] theorem State.writeFreq_larg1 (sym : Sym) (f : Word) : (s.writeFreq sym f).larg1 = s.larg1 := rfl
@[simp] theorem State.writeFreq_larg2 (sym : Sym) (f : Word) : (s.writeFreq sym f).larg2 = s.larg2 := rfl
@[simp] theorem State.writeFreq_larg3 (sym : Sym) (f : Word) : (s.writeFreq sym f).larg3 = s.larg3 := rfl
@[simp] theorem State.writeFreq_done (sym : Sym) (f : Word) : (s.writeFreq sym f).done = s.done := rfl
@[simp] theorem State.writeFreq_treeValid (sym : Sym) (f : Word) : (s.writeFreq sym f).treeValid = s.treeValid := rfl
@[simp] theorem State.writeFreq_codesValid (sym : Sym) (f : Word) : (s.writeFreq sym f).codesValid = s.codesValid := rfl
@[simp] theorem State.writeFreq_cmdLost (sym : Sym) (f : Word) : (s.writeFreq sym f).cmdLost = s.cmdLost := rfl
@[simp] theorem State.writeFreq_err (sym : Sym) (f : Word) : (s.writeFreq sym f).err = s.err := rfl
@[simp] theorem State.writeFreq_ie (sym : Sym) (f : Word) : (s.writeFreq sym f).ie = s.ie := rfl
@[simp] theorem State.writeFreq_arg0 (sym : Sym) (f : Word) : (s.writeFreq sym f).arg0 = s.arg0 := rfl
@[simp] theorem State.writeFreq_arg1 (sym : Sym) (f : Word) : (s.writeFreq sym f).arg1 = s.arg1 := rfl
@[simp] theorem State.writeFreq_arg2 (sym : Sym) (f : Word) : (s.writeFreq sym f).arg2 = s.arg2 := rfl
@[simp] theorem State.writeFreq_arg3 (sym : Sym) (f : Word) : (s.writeFreq sym f).arg3 = s.arg3 := rfl
@[simp] theorem State.writeFreq_result0 (sym : Sym) (f : Word) : (s.writeFreq sym f).result0 = s.result0 := rfl
@[simp] theorem State.writeFreq_result1 (sym : Sym) (f : Word) : (s.writeFreq sym f).result1 = s.result1 := rfl
@[simp] theorem State.writeFreq_errPos (sym : Sym) (f : Word) : (s.writeFreq sym f).errPos = s.errPos := rfl
@[simp] theorem State.writeFreq_errData (sym : Sym) (f : Word) : (s.writeFreq sym f).errData = s.errData := rfl
@[simp] theorem State.writeFreq_freq (sym : Sym) (f : Word) : (s.writeFreq sym f).freq = s.freq.set sym.toNat f sym.isLt := rfl
@[simp] theorem State.writeFreq_fw (sym : Sym) (f : Word) : (s.writeFreq sym f).fw = s.fw.set sym.toNat true sym.isLt := rfl
@[simp] theorem State.writeFreq_arena (sym : Sym) (f : Word) : (s.writeFreq sym f).arena = s.arena := rfl
@[simp] theorem State.writeFreq_code (sym : Sym) (f : Word) : (s.writeFreq sym f).code = s.code := rfl
@[simp] theorem State.writeFreq_mem (sym : Sym) (f : Word) : (s.writeFreq sym f).mem = s.mem := rfl
@[simp] theorem State.writeFreq_platform (sym : Sym) (f : Word) : (s.writeFreq sym f).platform = s.platform := rfl
@[simp] theorem State.writeFreq_inputs (sym : Sym) (f : Word) : (s.writeFreq sym f).inputs = s.inputs := rfl
@[simp] theorem State.writeFreq_response (sym : Sym) (f : Word) : (s.writeFreq sym f).response = s.response := rfl
@[simp] theorem State.writeFreq_unobserved (sym : Sym) (f : Word) : (s.writeFreq sym f).unobserved = s.unobserved := rfl
@[simp] theorem State.writeFreq_freeCount (sym : Sym) (f : Word) : (s.writeFreq sym f).freeCount = s.freeCount := rfl

/-! ## State.writeFreqTable -/

@[simp] theorem State.writeFreqTable_eng (table : Vector Word 256) : (s.writeFreqTable table).eng = s.eng := rfl
@[simp] theorem State.writeFreqTable_lcmd (table : Vector Word 256) : (s.writeFreqTable table).lcmd = s.lcmd := rfl
@[simp] theorem State.writeFreqTable_larg0 (table : Vector Word 256) : (s.writeFreqTable table).larg0 = s.larg0 := rfl
@[simp] theorem State.writeFreqTable_larg1 (table : Vector Word 256) : (s.writeFreqTable table).larg1 = s.larg1 := rfl
@[simp] theorem State.writeFreqTable_larg2 (table : Vector Word 256) : (s.writeFreqTable table).larg2 = s.larg2 := rfl
@[simp] theorem State.writeFreqTable_larg3 (table : Vector Word 256) : (s.writeFreqTable table).larg3 = s.larg3 := rfl
@[simp] theorem State.writeFreqTable_done (table : Vector Word 256) : (s.writeFreqTable table).done = s.done := rfl
@[simp] theorem State.writeFreqTable_treeValid (table : Vector Word 256) : (s.writeFreqTable table).treeValid = s.treeValid := rfl
@[simp] theorem State.writeFreqTable_codesValid (table : Vector Word 256) : (s.writeFreqTable table).codesValid = s.codesValid := rfl
@[simp] theorem State.writeFreqTable_cmdLost (table : Vector Word 256) : (s.writeFreqTable table).cmdLost = s.cmdLost := rfl
@[simp] theorem State.writeFreqTable_err (table : Vector Word 256) : (s.writeFreqTable table).err = s.err := rfl
@[simp] theorem State.writeFreqTable_ie (table : Vector Word 256) : (s.writeFreqTable table).ie = s.ie := rfl
@[simp] theorem State.writeFreqTable_arg0 (table : Vector Word 256) : (s.writeFreqTable table).arg0 = s.arg0 := rfl
@[simp] theorem State.writeFreqTable_arg1 (table : Vector Word 256) : (s.writeFreqTable table).arg1 = s.arg1 := rfl
@[simp] theorem State.writeFreqTable_arg2 (table : Vector Word 256) : (s.writeFreqTable table).arg2 = s.arg2 := rfl
@[simp] theorem State.writeFreqTable_arg3 (table : Vector Word 256) : (s.writeFreqTable table).arg3 = s.arg3 := rfl
@[simp] theorem State.writeFreqTable_result0 (table : Vector Word 256) : (s.writeFreqTable table).result0 = s.result0 := rfl
@[simp] theorem State.writeFreqTable_result1 (table : Vector Word 256) : (s.writeFreqTable table).result1 = s.result1 := rfl
@[simp] theorem State.writeFreqTable_errPos (table : Vector Word 256) : (s.writeFreqTable table).errPos = s.errPos := rfl
@[simp] theorem State.writeFreqTable_errData (table : Vector Word 256) : (s.writeFreqTable table).errData = s.errData := rfl
@[simp] theorem State.writeFreqTable_freq (table : Vector Word 256) : (s.writeFreqTable table).freq = table := rfl
@[simp] theorem State.writeFreqTable_fw (table : Vector Word 256) : (s.writeFreqTable table).fw = Vector.replicate 256 true := rfl
@[simp] theorem State.writeFreqTable_arena (table : Vector Word 256) : (s.writeFreqTable table).arena = s.arena := rfl
@[simp] theorem State.writeFreqTable_code (table : Vector Word 256) : (s.writeFreqTable table).code = s.code := rfl
@[simp] theorem State.writeFreqTable_mem (table : Vector Word 256) : (s.writeFreqTable table).mem = s.mem := rfl
@[simp] theorem State.writeFreqTable_platform (table : Vector Word 256) : (s.writeFreqTable table).platform = s.platform := rfl
@[simp] theorem State.writeFreqTable_inputs (table : Vector Word 256) : (s.writeFreqTable table).inputs = s.inputs := rfl
@[simp] theorem State.writeFreqTable_response (table : Vector Word 256) : (s.writeFreqTable table).response = s.response := rfl
@[simp] theorem State.writeFreqTable_unobserved (table : Vector Word 256) : (s.writeFreqTable table).unobserved = s.unobserved := rfl
@[simp] theorem State.writeFreqTable_freeCount (table : Vector Word 256) : (s.writeFreqTable table).freeCount = s.freeCount := rfl

/-! ## State.discardLatched -/

@[simp] theorem State.discardLatched_eng : (s.discardLatched).eng = s.eng := rfl
@[simp] theorem State.discardLatched_lcmd : (s.discardLatched).lcmd = Config.freeWord s.freeCount := rfl
@[simp] theorem State.discardLatched_larg0 : (s.discardLatched).larg0 = Config.freeWord (s.freeCount + 1) := rfl
@[simp] theorem State.discardLatched_larg1 : (s.discardLatched).larg1 = Config.freeWord (s.freeCount + 2) := rfl
@[simp] theorem State.discardLatched_larg2 : (s.discardLatched).larg2 = Config.freeWord (s.freeCount + 3) := rfl
@[simp] theorem State.discardLatched_larg3 : (s.discardLatched).larg3 = Config.freeWord (s.freeCount + 4) := rfl
@[simp] theorem State.discardLatched_done : (s.discardLatched).done = s.done := rfl
@[simp] theorem State.discardLatched_treeValid : (s.discardLatched).treeValid = s.treeValid := rfl
@[simp] theorem State.discardLatched_codesValid : (s.discardLatched).codesValid = s.codesValid := rfl
@[simp] theorem State.discardLatched_cmdLost : (s.discardLatched).cmdLost = s.cmdLost := rfl
@[simp] theorem State.discardLatched_err : (s.discardLatched).err = s.err := rfl
@[simp] theorem State.discardLatched_ie : (s.discardLatched).ie = s.ie := rfl
@[simp] theorem State.discardLatched_arg0 : (s.discardLatched).arg0 = s.arg0 := rfl
@[simp] theorem State.discardLatched_arg1 : (s.discardLatched).arg1 = s.arg1 := rfl
@[simp] theorem State.discardLatched_arg2 : (s.discardLatched).arg2 = s.arg2 := rfl
@[simp] theorem State.discardLatched_arg3 : (s.discardLatched).arg3 = s.arg3 := rfl
@[simp] theorem State.discardLatched_result0 : (s.discardLatched).result0 = s.result0 := rfl
@[simp] theorem State.discardLatched_result1 : (s.discardLatched).result1 = s.result1 := rfl
@[simp] theorem State.discardLatched_errPos : (s.discardLatched).errPos = s.errPos := rfl
@[simp] theorem State.discardLatched_errData : (s.discardLatched).errData = s.errData := rfl
@[simp] theorem State.discardLatched_freq : (s.discardLatched).freq = s.freq := rfl
@[simp] theorem State.discardLatched_fw : (s.discardLatched).fw = s.fw := rfl
@[simp] theorem State.discardLatched_arena : (s.discardLatched).arena = s.arena := rfl
@[simp] theorem State.discardLatched_code : (s.discardLatched).code = s.code := rfl
@[simp] theorem State.discardLatched_mem : (s.discardLatched).mem = s.mem := rfl
@[simp] theorem State.discardLatched_platform : (s.discardLatched).platform = s.platform := rfl
@[simp] theorem State.discardLatched_inputs : (s.discardLatched).inputs = s.inputs := rfl
@[simp] theorem State.discardLatched_response : (s.discardLatched).response = s.response := rfl
@[simp] theorem State.discardLatched_unobserved : (s.discardLatched).unobserved = s.latchedRegions ++ s.unobserved := rfl
@[simp] theorem State.discardLatched_freeCount : (s.discardLatched).freeCount = s.freeCount + 5 := rfl

/-! ## State.installTree -/

@[simp] theorem State.installTree_eng (a : Arena) : (s.installTree a).eng = s.eng := rfl
@[simp] theorem State.installTree_lcmd (a : Arena) : (s.installTree a).lcmd = s.lcmd := rfl
@[simp] theorem State.installTree_larg0 (a : Arena) : (s.installTree a).larg0 = s.larg0 := rfl
@[simp] theorem State.installTree_larg1 (a : Arena) : (s.installTree a).larg1 = s.larg1 := rfl
@[simp] theorem State.installTree_larg2 (a : Arena) : (s.installTree a).larg2 = s.larg2 := rfl
@[simp] theorem State.installTree_larg3 (a : Arena) : (s.installTree a).larg3 = s.larg3 := rfl
@[simp] theorem State.installTree_done (a : Arena) : (s.installTree a).done = s.done := rfl
@[simp] theorem State.installTree_treeValid (a : Arena) : (s.installTree a).treeValid = true := rfl
@[simp] theorem State.installTree_codesValid (a : Arena) : (s.installTree a).codesValid = false := rfl
@[simp] theorem State.installTree_cmdLost (a : Arena) : (s.installTree a).cmdLost = s.cmdLost := rfl
@[simp] theorem State.installTree_err (a : Arena) : (s.installTree a).err = s.err := rfl
@[simp] theorem State.installTree_ie (a : Arena) : (s.installTree a).ie = s.ie := rfl
@[simp] theorem State.installTree_arg0 (a : Arena) : (s.installTree a).arg0 = s.arg0 := rfl
@[simp] theorem State.installTree_arg1 (a : Arena) : (s.installTree a).arg1 = s.arg1 := rfl
@[simp] theorem State.installTree_arg2 (a : Arena) : (s.installTree a).arg2 = s.arg2 := rfl
@[simp] theorem State.installTree_arg3 (a : Arena) : (s.installTree a).arg3 = s.arg3 := rfl
@[simp] theorem State.installTree_result0 (a : Arena) : (s.installTree a).result0 = s.result0 := rfl
@[simp] theorem State.installTree_result1 (a : Arena) : (s.installTree a).result1 = s.result1 := rfl
@[simp] theorem State.installTree_errPos (a : Arena) : (s.installTree a).errPos = s.errPos := rfl
@[simp] theorem State.installTree_errData (a : Arena) : (s.installTree a).errData = s.errData := rfl
@[simp] theorem State.installTree_freq (a : Arena) : (s.installTree a).freq = s.freq := rfl
@[simp] theorem State.installTree_fw (a : Arena) : (s.installTree a).fw = s.fw := rfl
@[simp] theorem State.installTree_arena (a : Arena) : (s.installTree a).arena = a := rfl
@[simp] theorem State.installTree_code (a : Arena) : (s.installTree a).code = s.freeCodes := rfl
@[simp] theorem State.installTree_mem (a : Arena) : (s.installTree a).mem = s.mem := rfl
@[simp] theorem State.installTree_platform (a : Arena) : (s.installTree a).platform = s.platform := rfl
@[simp] theorem State.installTree_inputs (a : Arena) : (s.installTree a).inputs = s.inputs := rfl
@[simp] theorem State.installTree_response (a : Arena) : (s.installTree a).response = s.response := rfl
@[simp] theorem State.installTree_unobserved (a : Arena) : (s.installTree a).unobserved = s.unobserved := rfl
@[simp] theorem State.installTree_freeCount (a : Arena) : (s.installTree a).freeCount = s.freeCount + 1 := rfl

/-! ## State.dropTree -/

@[simp] theorem State.dropTree_eng : (s.dropTree).eng = s.eng := rfl
@[simp] theorem State.dropTree_lcmd : (s.dropTree).lcmd = s.lcmd := rfl
@[simp] theorem State.dropTree_larg0 : (s.dropTree).larg0 = s.larg0 := rfl
@[simp] theorem State.dropTree_larg1 : (s.dropTree).larg1 = s.larg1 := rfl
@[simp] theorem State.dropTree_larg2 : (s.dropTree).larg2 = s.larg2 := rfl
@[simp] theorem State.dropTree_larg3 : (s.dropTree).larg3 = s.larg3 := rfl
@[simp] theorem State.dropTree_done : (s.dropTree).done = s.done := rfl
@[simp] theorem State.dropTree_treeValid : (s.dropTree).treeValid = false := rfl
@[simp] theorem State.dropTree_codesValid : (s.dropTree).codesValid = false := rfl
@[simp] theorem State.dropTree_cmdLost : (s.dropTree).cmdLost = s.cmdLost := rfl
@[simp] theorem State.dropTree_err : (s.dropTree).err = s.err := rfl
@[simp] theorem State.dropTree_ie : (s.dropTree).ie = s.ie := rfl
@[simp] theorem State.dropTree_arg0 : (s.dropTree).arg0 = s.arg0 := rfl
@[simp] theorem State.dropTree_arg1 : (s.dropTree).arg1 = s.arg1 := rfl
@[simp] theorem State.dropTree_arg2 : (s.dropTree).arg2 = s.arg2 := rfl
@[simp] theorem State.dropTree_arg3 : (s.dropTree).arg3 = s.arg3 := rfl
@[simp] theorem State.dropTree_result0 : (s.dropTree).result0 = s.result0 := rfl
@[simp] theorem State.dropTree_result1 : (s.dropTree).result1 = s.result1 := rfl
@[simp] theorem State.dropTree_errPos : (s.dropTree).errPos = s.errPos := rfl
@[simp] theorem State.dropTree_errData : (s.dropTree).errData = s.errData := rfl
@[simp] theorem State.dropTree_freq : (s.dropTree).freq = s.freq := rfl
@[simp] theorem State.dropTree_fw : (s.dropTree).fw = s.fw := rfl
@[simp] theorem State.dropTree_arena : (s.dropTree).arena = Config.freeArena s.freeCount := rfl
@[simp] theorem State.dropTree_code : (s.dropTree).code = s.freeCodes := rfl
@[simp] theorem State.dropTree_mem : (s.dropTree).mem = s.mem := rfl
@[simp] theorem State.dropTree_platform : (s.dropTree).platform = s.platform := rfl
@[simp] theorem State.dropTree_inputs : (s.dropTree).inputs = s.inputs := rfl
@[simp] theorem State.dropTree_response : (s.dropTree).response = s.response := rfl
@[simp] theorem State.dropTree_unobserved : (s.dropTree).unobserved = s.unobserved := rfl
@[simp] theorem State.dropTree_freeCount : (s.dropTree).freeCount = s.freeCount + 1 := rfl

/-! ## State.installCodes -/

@[simp] theorem State.installCodes_eng (table : Vector CodeEntry 256) : (s.installCodes table).eng = s.eng := rfl
@[simp] theorem State.installCodes_lcmd (table : Vector CodeEntry 256) : (s.installCodes table).lcmd = s.lcmd := rfl
@[simp] theorem State.installCodes_larg0 (table : Vector CodeEntry 256) : (s.installCodes table).larg0 = s.larg0 := rfl
@[simp] theorem State.installCodes_larg1 (table : Vector CodeEntry 256) : (s.installCodes table).larg1 = s.larg1 := rfl
@[simp] theorem State.installCodes_larg2 (table : Vector CodeEntry 256) : (s.installCodes table).larg2 = s.larg2 := rfl
@[simp] theorem State.installCodes_larg3 (table : Vector CodeEntry 256) : (s.installCodes table).larg3 = s.larg3 := rfl
@[simp] theorem State.installCodes_done (table : Vector CodeEntry 256) : (s.installCodes table).done = s.done := rfl
@[simp] theorem State.installCodes_treeValid (table : Vector CodeEntry 256) : (s.installCodes table).treeValid = s.treeValid := rfl
@[simp] theorem State.installCodes_codesValid (table : Vector CodeEntry 256) : (s.installCodes table).codesValid = true := rfl
@[simp] theorem State.installCodes_cmdLost (table : Vector CodeEntry 256) : (s.installCodes table).cmdLost = s.cmdLost := rfl
@[simp] theorem State.installCodes_err (table : Vector CodeEntry 256) : (s.installCodes table).err = s.err := rfl
@[simp] theorem State.installCodes_ie (table : Vector CodeEntry 256) : (s.installCodes table).ie = s.ie := rfl
@[simp] theorem State.installCodes_arg0 (table : Vector CodeEntry 256) : (s.installCodes table).arg0 = s.arg0 := rfl
@[simp] theorem State.installCodes_arg1 (table : Vector CodeEntry 256) : (s.installCodes table).arg1 = s.arg1 := rfl
@[simp] theorem State.installCodes_arg2 (table : Vector CodeEntry 256) : (s.installCodes table).arg2 = s.arg2 := rfl
@[simp] theorem State.installCodes_arg3 (table : Vector CodeEntry 256) : (s.installCodes table).arg3 = s.arg3 := rfl
@[simp] theorem State.installCodes_result0 (table : Vector CodeEntry 256) : (s.installCodes table).result0 = s.result0 := rfl
@[simp] theorem State.installCodes_result1 (table : Vector CodeEntry 256) : (s.installCodes table).result1 = s.result1 := rfl
@[simp] theorem State.installCodes_errPos (table : Vector CodeEntry 256) : (s.installCodes table).errPos = s.errPos := rfl
@[simp] theorem State.installCodes_errData (table : Vector CodeEntry 256) : (s.installCodes table).errData = s.errData := rfl
@[simp] theorem State.installCodes_freq (table : Vector CodeEntry 256) : (s.installCodes table).freq = s.freq := rfl
@[simp] theorem State.installCodes_fw (table : Vector CodeEntry 256) : (s.installCodes table).fw = s.fw := rfl
@[simp] theorem State.installCodes_arena (table : Vector CodeEntry 256) : (s.installCodes table).arena = s.arena := rfl
@[simp] theorem State.installCodes_code (table : Vector CodeEntry 256) : (s.installCodes table).code = table := rfl
@[simp] theorem State.installCodes_mem (table : Vector CodeEntry 256) : (s.installCodes table).mem = s.mem := rfl
@[simp] theorem State.installCodes_platform (table : Vector CodeEntry 256) : (s.installCodes table).platform = s.platform := rfl
@[simp] theorem State.installCodes_inputs (table : Vector CodeEntry 256) : (s.installCodes table).inputs = s.inputs := rfl
@[simp] theorem State.installCodes_response (table : Vector CodeEntry 256) : (s.installCodes table).response = s.response := rfl
@[simp] theorem State.installCodes_unobserved (table : Vector CodeEntry 256) : (s.installCodes table).unobserved = s.unobserved := rfl
@[simp] theorem State.installCodes_freeCount (table : Vector CodeEntry 256) : (s.installCodes table).freeCount = s.freeCount := rfl

/-! ## State.observeRead -/

@[simp] theorem State.observeRead_eng (offset : Nat) : (s.observeRead offset).eng = s.eng := rfl
@[simp] theorem State.observeRead_lcmd (offset : Nat) : (s.observeRead offset).lcmd = s.lcmd := rfl
@[simp] theorem State.observeRead_larg0 (offset : Nat) : (s.observeRead offset).larg0 = s.larg0 := rfl
@[simp] theorem State.observeRead_larg1 (offset : Nat) : (s.observeRead offset).larg1 = s.larg1 := rfl
@[simp] theorem State.observeRead_larg2 (offset : Nat) : (s.observeRead offset).larg2 = s.larg2 := rfl
@[simp] theorem State.observeRead_larg3 (offset : Nat) : (s.observeRead offset).larg3 = s.larg3 := rfl
@[simp] theorem State.observeRead_done (offset : Nat) : (s.observeRead offset).done = s.done := rfl
@[simp] theorem State.observeRead_treeValid (offset : Nat) : (s.observeRead offset).treeValid = s.treeValid := rfl
@[simp] theorem State.observeRead_codesValid (offset : Nat) : (s.observeRead offset).codesValid = s.codesValid := rfl
@[simp] theorem State.observeRead_cmdLost (offset : Nat) : (s.observeRead offset).cmdLost = s.cmdLost := rfl
@[simp] theorem State.observeRead_err (offset : Nat) : (s.observeRead offset).err = s.err := rfl
@[simp] theorem State.observeRead_ie (offset : Nat) : (s.observeRead offset).ie = s.ie := rfl
@[simp] theorem State.observeRead_arg0 (offset : Nat) : (s.observeRead offset).arg0 = s.arg0 := rfl
@[simp] theorem State.observeRead_arg1 (offset : Nat) : (s.observeRead offset).arg1 = s.arg1 := rfl
@[simp] theorem State.observeRead_arg2 (offset : Nat) : (s.observeRead offset).arg2 = s.arg2 := rfl
@[simp] theorem State.observeRead_arg3 (offset : Nat) : (s.observeRead offset).arg3 = s.arg3 := rfl
@[simp] theorem State.observeRead_result0 (offset : Nat) : (s.observeRead offset).result0 = s.result0 := rfl
@[simp] theorem State.observeRead_result1 (offset : Nat) : (s.observeRead offset).result1 = s.result1 := rfl
@[simp] theorem State.observeRead_errPos (offset : Nat) : (s.observeRead offset).errPos = s.errPos := rfl
@[simp] theorem State.observeRead_errData (offset : Nat) : (s.observeRead offset).errData = s.errData := rfl
@[simp] theorem State.observeRead_freq (offset : Nat) : (s.observeRead offset).freq = s.freq := rfl
@[simp] theorem State.observeRead_fw (offset : Nat) : (s.observeRead offset).fw = s.fw := rfl
@[simp] theorem State.observeRead_arena (offset : Nat) : (s.observeRead offset).arena = s.arena := rfl
@[simp] theorem State.observeRead_code (offset : Nat) : (s.observeRead offset).code = s.code := rfl
@[simp] theorem State.observeRead_mem (offset : Nat) : (s.observeRead offset).mem = s.mem := rfl
@[simp] theorem State.observeRead_platform (offset : Nat) : (s.observeRead offset).platform = s.platform := rfl
@[simp] theorem State.observeRead_inputs (offset : Nat) : (s.observeRead offset).inputs = s.inputs := rfl
@[simp] theorem State.observeRead_response (offset : Nat) : (s.observeRead offset).response = s.response := rfl
@[simp] theorem State.observeRead_unobserved (offset : Nat) : (s.observeRead offset).unobserved = if offset = 0x04 ∧ (s.eng = .idle ∨ s.done = true) then [] else s.unobserved := rfl
@[simp] theorem State.observeRead_freeCount (offset : Nat) : (s.observeRead offset).freeCount = s.freeCount := rfl

/-! ## State.observeIrq -/

@[simp] theorem State.observeIrq_eng : (s.observeIrq).eng = s.eng := rfl
@[simp] theorem State.observeIrq_lcmd : (s.observeIrq).lcmd = s.lcmd := rfl
@[simp] theorem State.observeIrq_larg0 : (s.observeIrq).larg0 = s.larg0 := rfl
@[simp] theorem State.observeIrq_larg1 : (s.observeIrq).larg1 = s.larg1 := rfl
@[simp] theorem State.observeIrq_larg2 : (s.observeIrq).larg2 = s.larg2 := rfl
@[simp] theorem State.observeIrq_larg3 : (s.observeIrq).larg3 = s.larg3 := rfl
@[simp] theorem State.observeIrq_done : (s.observeIrq).done = s.done := rfl
@[simp] theorem State.observeIrq_treeValid : (s.observeIrq).treeValid = s.treeValid := rfl
@[simp] theorem State.observeIrq_codesValid : (s.observeIrq).codesValid = s.codesValid := rfl
@[simp] theorem State.observeIrq_cmdLost : (s.observeIrq).cmdLost = s.cmdLost := rfl
@[simp] theorem State.observeIrq_err : (s.observeIrq).err = s.err := rfl
@[simp] theorem State.observeIrq_ie : (s.observeIrq).ie = s.ie := rfl
@[simp] theorem State.observeIrq_arg0 : (s.observeIrq).arg0 = s.arg0 := rfl
@[simp] theorem State.observeIrq_arg1 : (s.observeIrq).arg1 = s.arg1 := rfl
@[simp] theorem State.observeIrq_arg2 : (s.observeIrq).arg2 = s.arg2 := rfl
@[simp] theorem State.observeIrq_arg3 : (s.observeIrq).arg3 = s.arg3 := rfl
@[simp] theorem State.observeIrq_result0 : (s.observeIrq).result0 = s.result0 := rfl
@[simp] theorem State.observeIrq_result1 : (s.observeIrq).result1 = s.result1 := rfl
@[simp] theorem State.observeIrq_errPos : (s.observeIrq).errPos = s.errPos := rfl
@[simp] theorem State.observeIrq_errData : (s.observeIrq).errData = s.errData := rfl
@[simp] theorem State.observeIrq_freq : (s.observeIrq).freq = s.freq := rfl
@[simp] theorem State.observeIrq_fw : (s.observeIrq).fw = s.fw := rfl
@[simp] theorem State.observeIrq_arena : (s.observeIrq).arena = s.arena := rfl
@[simp] theorem State.observeIrq_code : (s.observeIrq).code = s.code := rfl
@[simp] theorem State.observeIrq_mem : (s.observeIrq).mem = s.mem := rfl
@[simp] theorem State.observeIrq_platform : (s.observeIrq).platform = s.platform := rfl
@[simp] theorem State.observeIrq_inputs : (s.observeIrq).inputs = s.inputs := rfl
@[simp] theorem State.observeIrq_response : (s.observeIrq).response = s.response := rfl
@[simp] theorem State.observeIrq_unobserved : (s.observeIrq).unobserved = if s.irq then [] else s.unobserved := rfl
@[simp] theorem State.observeIrq_freeCount : (s.observeIrq).freeCount = s.freeCount := rfl

/-! ## State.writeStatus -/

@[simp] theorem State.writeStatus_eng (w : Word) : (s.writeStatus w).eng = s.eng := rfl
@[simp] theorem State.writeStatus_lcmd (w : Word) : (s.writeStatus w).lcmd = s.lcmd := rfl
@[simp] theorem State.writeStatus_larg0 (w : Word) : (s.writeStatus w).larg0 = s.larg0 := rfl
@[simp] theorem State.writeStatus_larg1 (w : Word) : (s.writeStatus w).larg1 = s.larg1 := rfl
@[simp] theorem State.writeStatus_larg2 (w : Word) : (s.writeStatus w).larg2 = s.larg2 := rfl
@[simp] theorem State.writeStatus_larg3 (w : Word) : (s.writeStatus w).larg3 = s.larg3 := rfl
@[simp] theorem State.writeStatus_done (w : Word) : (s.writeStatus w).done = (s.done && !w.getLsbD 1) := rfl
@[simp] theorem State.writeStatus_treeValid (w : Word) : (s.writeStatus w).treeValid = s.treeValid := rfl
@[simp] theorem State.writeStatus_codesValid (w : Word) : (s.writeStatus w).codesValid = s.codesValid := rfl
@[simp] theorem State.writeStatus_cmdLost (w : Word) : (s.writeStatus w).cmdLost = (s.cmdLost && !w.getLsbD 4) := rfl
@[simp] theorem State.writeStatus_err (w : Word) : (s.writeStatus w).err = s.err := rfl
@[simp] theorem State.writeStatus_ie (w : Word) : (s.writeStatus w).ie = s.ie := rfl
@[simp] theorem State.writeStatus_arg0 (w : Word) : (s.writeStatus w).arg0 = s.arg0 := rfl
@[simp] theorem State.writeStatus_arg1 (w : Word) : (s.writeStatus w).arg1 = s.arg1 := rfl
@[simp] theorem State.writeStatus_arg2 (w : Word) : (s.writeStatus w).arg2 = s.arg2 := rfl
@[simp] theorem State.writeStatus_arg3 (w : Word) : (s.writeStatus w).arg3 = s.arg3 := rfl
@[simp] theorem State.writeStatus_result0 (w : Word) : (s.writeStatus w).result0 = s.result0 := rfl
@[simp] theorem State.writeStatus_result1 (w : Word) : (s.writeStatus w).result1 = s.result1 := rfl
@[simp] theorem State.writeStatus_errPos (w : Word) : (s.writeStatus w).errPos = s.errPos := rfl
@[simp] theorem State.writeStatus_errData (w : Word) : (s.writeStatus w).errData = s.errData := rfl
@[simp] theorem State.writeStatus_freq (w : Word) : (s.writeStatus w).freq = s.freq := rfl
@[simp] theorem State.writeStatus_fw (w : Word) : (s.writeStatus w).fw = s.fw := rfl
@[simp] theorem State.writeStatus_arena (w : Word) : (s.writeStatus w).arena = s.arena := rfl
@[simp] theorem State.writeStatus_code (w : Word) : (s.writeStatus w).code = s.code := rfl
@[simp] theorem State.writeStatus_mem (w : Word) : (s.writeStatus w).mem = s.mem := rfl
@[simp] theorem State.writeStatus_platform (w : Word) : (s.writeStatus w).platform = s.platform := rfl
@[simp] theorem State.writeStatus_inputs (w : Word) : (s.writeStatus w).inputs = s.inputs := rfl
@[simp] theorem State.writeStatus_response (w : Word) : (s.writeStatus w).response = s.response := rfl
@[simp] theorem State.writeStatus_unobserved (w : Word) : (s.writeStatus w).unobserved = s.unobserved := rfl
@[simp] theorem State.writeStatus_freeCount (w : Word) : (s.writeStatus w).freeCount = s.freeCount := rfl

end Sys2Proof.Machine
end

