-- ==== Sys2Proof/Laws/Memory.lean ====
section
/-! SUPPORT. The laws of the shared memory: the canonical form is kept, a read after a write, a write elsewhere. -/

namespace Sys2Proof.Machine

/-- A write lists no key but its own and those listed before. -/
theorem Memory.mem_writeKey {m : Memory} {a : Nat} {v : Byte} {c : Host.Cell} (h : c ∈ Memory.writeKey m a v) :
    c = (a, v) ∧ v ≠ Memory.unlisted ∨ c ∈ m := by
  induction m with
  | nil =>
    unfold Memory.writeKey at h
    split at h
    · simp at h
    · exact .inl ⟨by simpa using h, ‹_›⟩
  | cons d rest ih =>
    obtain ⟨k, w⟩ := d
    unfold Memory.writeKey at h
    split at h
    · split at h
      · exact .inr h
      · rcases List.mem_cons.1 h with rfl | h
        · exact .inl ⟨rfl, ‹_›⟩
        · exact .inr h
    · split at h
      · rename_i hk
        subst hk
        split at h
        · exact .inr (List.mem_cons_of_mem _ h)
        · rcases List.mem_cons.1 h with rfl | h
          · exact .inl ⟨rfl, ‹_›⟩
          · exact .inr (List.mem_cons_of_mem _ h)
      · rcases List.mem_cons.1 h with rfl | h
        · exact .inr List.mem_cons_self
        · exact (ih h).imp_right (List.mem_cons_of_mem _)

/-- A write keeps keys strictly rising. -/
theorem Memory.writeKey_sorted {m : Memory} (a : Nat) (v : Byte) (h : m.Pairwise (fun c d => c.1 < d.1)) :
    (Memory.writeKey m a v).Pairwise (fun c d => c.1 < d.1) := by
  induction m with
  | nil => unfold Memory.writeKey; split <;> simp
  | cons d rest ih =>
    obtain ⟨k, w⟩ := d
    obtain ⟨hk, hrest⟩ := List.pairwise_cons.1 h
    unfold Memory.writeKey
    split
    · rename_i hak
      split
      · exact h
      · refine List.pairwise_cons.2 ⟨fun c hc => ?_, h⟩
        rcases List.mem_cons.1 hc with rfl | hc
        · exact hak
        · exact Nat.lt_trans hak (hk c hc)
    · split
      · split
        · exact hrest
        · exact List.pairwise_cons.2 ⟨hk, hrest⟩
      · refine List.pairwise_cons.2 ⟨fun c hc => ?_, ih hrest⟩
        rcases Memory.mem_writeKey hc with ⟨rfl, -⟩ | hc
        · simp only; omega
        · exact hk c hc

/-- A write below 2^32 keeps the canonical form. -/
theorem Memory.writeKey_wf {m : Memory} {a : Nat} (v : Byte) (ha : a < 2 ^ 32) (h : Memory.wf m) :
    Memory.wf (Memory.writeKey m a v) := by
  refine ⟨Memory.writeKey_sorted a v h.1, fun c hc => ?_⟩
  rcases Memory.mem_writeKey hc with ⟨rfl, hv⟩ | hc
  · exact ⟨ha, hv⟩
  · exact h.2 c hc

/-- A write to an address keeps the canonical form. -/
theorem Memory.write_wf {m : Memory} (a : Addr) (v : Byte) (h : Memory.wf m) : Memory.wf (m.write a v) :=
  Memory.writeKey_wf v a.isLt h

/-- A key below every listed one reads as unlisted. -/
theorem Memory.readKey_of_lt {m : Memory} {a : Nat} (h : ∀ c ∈ m, a < c.1) : Memory.readKey m a = Memory.unlisted := by
  induction m with
  | nil => rfl
  | cons d rest ih =>
    have hd : d.1 ≠ a := by have := h d List.mem_cons_self; omega
    unfold Memory.readKey
    rw [if_neg hd]
    exact ih fun c hc => h c (List.mem_cons_of_mem _ hc)

/-- A write leaves every other key alone, in any memory. -/
theorem Memory.readKey_writeKey_ne {m : Memory} {a b : Nat} (v : Byte) (h : b ≠ a) :
    Memory.readKey (Memory.writeKey m a v) b = Memory.readKey m b := by
  induction m with
  | nil =>
    unfold Memory.writeKey
    split
    · rfl
    · simp [Memory.readKey, h.symm]
  | cons d rest ih =>
    obtain ⟨k, w⟩ := d
    unfold Memory.writeKey
    split
    · split
      · rfl
      · simp [Memory.readKey, h.symm]
    · split
      · rename_i hk
        subst hk
        split <;> simp [Memory.readKey, h.symm]
      · simp only [Memory.readKey, ih]

/-- A read after a write to the same key gives the value written. -/
theorem Memory.readKey_writeKey_same {m : Memory} (a : Nat) (v : Byte) (h : m.Pairwise (fun c d => c.1 < d.1)) :
    Memory.readKey (Memory.writeKey m a v) a = v := by
  induction m with
  | nil =>
    unfold Memory.writeKey
    split
    · rename_i hv; simp [Memory.readKey, hv]
    · simp [Memory.readKey]
  | cons d rest ih =>
    obtain ⟨k, w⟩ := d
    obtain ⟨hk, hrest⟩ := List.pairwise_cons.1 h
    unfold Memory.writeKey
    split
    · rename_i hak
      split
      · rename_i hv
        rw [hv]
        refine Memory.readKey_of_lt fun c hc => ?_
        rcases List.mem_cons.1 hc with rfl | hc
        · exact hak
        · exact Nat.lt_trans hak (hk c hc)
      · simp [Memory.readKey]
    · split
      · rename_i hk'
        subst hk'
        split
        · rename_i hv
          rw [hv]
          exact Memory.readKey_of_lt hk
        · simp [Memory.readKey]
      · rename_i hne
        simp only [Memory.readKey]
        rw [if_neg (fun e => hne e.symm)]
        exact ih hrest

/-- A read after a write to the same address gives the value written. -/
theorem Memory.read_write_same {m : Memory} (a : Addr) (v : Byte) (h : Memory.wf m) : (m.write a v).read a = v :=
  Memory.readKey_writeKey_same a.toNat v h.1

/-- A write leaves every other address alone. -/
theorem Memory.read_write_ne {m : Memory} {a b : Addr} (v : Byte) (h : b ≠ a) : (m.write a v).read b = m.read b :=
  Memory.readKey_writeKey_ne v fun e => h (BitVec.eq_of_toNat_eq e)

/-- A listed key reads as the byte listed with it. -/
theorem Memory.readKey_of_mem {m : Memory} {c : Host.Cell} (h : Memory.wf m) (hc : c ∈ m) :
    Memory.readKey m c.1 = c.2 := by
  induction m with
  | nil => simp at hc
  | cons d rest ih =>
    obtain ⟨hk, hrest⟩ := List.pairwise_cons.1 h.1
    unfold Memory.readKey
    rcases List.mem_cons.1 hc with rfl | hc
    · simp
    · rw [if_neg (Nat.ne_of_lt (hk c hc))]
      exact ih ⟨hrest, fun e he => h.2 e (List.mem_cons_of_mem _ he)⟩ hc

/-- The memory after reset is in canonical form. -/
theorem reset_memory_wf : Memory.wf State.reset.mem := by decide

/-- The free bytes of an abandoned destination keep the canonical form. -/
theorem freeBytes_wf (n a k : Nat) {m : Memory} (h : Memory.wf m) : Memory.wf (freeBytes n a k m) := by
  induction n generalizing a k m with
  | zero => exact h
  | succ n ih =>
    unfold freeBytes
    split
    · exact ih (a + 1) (k + 1) (Memory.writeKey_wf _ ‹_› h)
    · exact h

/-- The free bytes of an abandoned destination lie inside it. -/
theorem readKey_freeBytes (n a k : Nat) (m : Memory) {b : Nat} (h : b < a ∨ a + n ≤ b) :
    Memory.readKey (freeBytes n a k m) b = Memory.readKey m b := by
  induction n generalizing a k m with
  | zero => rfl
  | succ n ih =>
    unfold freeBytes
    split
    · rw [ih (a + 1) (k + 1) _ (by omega), Memory.readKey_writeKey_ne _ (by omega)]
    · rfl

end Sys2Proof.Machine
end

