-- ==== Sys2Proof/Laws/Ops.lean ====
section
/-! SUPPORT. What each shared operation can do, said once: the memory port, the writes of a region, the region checks,
and the inputs of a step. -/

namespace Sys2Proof.Machine

/-- An address inside a legal region does not wrap (20_memory.md R66). -/
theorem addrAt_toNat {base : Addr} {k : Nat} (h : base.toNat + k < 2 ^ 32) : (addrAt base k).toNat = base.toNat + k := by
  simp [addrAt, BitVec.toNat_add, BitVec.toNat_ofNat]
  omega

/-- Two offsets below 2^32 give two addresses. -/
theorem addrAt_inj {base : Addr} {j k : Nat} (hj : j < 2 ^ 32) (hk : k < 2 ^ 32) (h : addrAt base j = addrAt base k) :
    j = k := by
  have := congrArg BitVec.toNat (BitVec.add_right_inj base |>.1 h)
  simp only [BitVec.toNat_ofNat] at this
  omega

theorem Region.contains_iff {r : Region} {a : Addr} :
    r.contains a = true ↔ r.base.toNat ≤ a.toNat ∧ a.toNat < r.base.toNat + r.len := by
  simp [Region.contains]

theorem Region.wraps_eq_false_iff {r : Region} : r.wraps = false ↔ r.len = 0 ∨ r.base.toNat + r.len ≤ 2 ^ 32 := by
  simp [Region.wraps]
  omega

/-- A read answers IoFailure or the byte (20_memory.md R64). -/
theorem engineRead_eq_ok_iff {s : State} {a : Addr} {v : Byte} :
    engineRead s a = .ok v ↔ s.platform.busError a .read = false ∧ s.mem.read a = v := by
  unfold engineRead
  cases s.platform.busError a .read <;> simp

theorem engineRead_eq_error_iff {s : State} {a : Addr} {e : CmdError} :
    engineRead s a = .error e ↔ s.platform.busError a .read = true ∧ e = ⟨.ioFailure, a, 0#11⟩ := by
  unfold engineRead
  cases s.platform.busError a .read <;> simp [eq_comm]

/-- All a region write can change is the memory and the count of free values. -/
theorem writeBytes_changes {base : Addr} {k : Nat} {bytes : List Byte} {s t : State} {r : Option CmdError}
    (h : writeBytes base k bytes s = (t, r)) : t = { s with mem := t.mem, freeCount := t.freeCount } := by
  induction bytes generalizing k s with
  | nil => cases h; rfl
  | cons v rest ih =>
    unfold writeBytes engineWrite at h
    split at h
    · rename_i hw
      split at hw <;> cases hw
      cases h; rfl
    · rename_i hw
      split at hw <;> cases hw
      have := ih h
      rw [this]

/-- A region write keeps the memory canonical. -/
theorem writeBytes_wf {base : Addr} {k : Nat} {bytes : List Byte} {s t : State} {r : Option CmdError}
    (h : writeBytes base k bytes s = (t, r)) (hs : Memory.wf s.mem) : Memory.wf t.mem := by
  induction bytes generalizing k s with
  | nil => cases h; exact hs
  | cons v rest ih =>
    unfold writeBytes engineWrite at h
    split at h
    · rename_i hw
      split at hw <;> cases hw
      cases h; exact Memory.write_wf _ _ hs
    · rename_i hw
      split at hw <;> cases hw
      exact ih h (Memory.write_wf _ _ hs)

/-- A region write leaves every address outside its bytes alone. -/
theorem writeBytes_outside {base : Addr} {k : Nat} {bytes : List Byte} {s t : State} {r : Option CmdError} {a : Addr}
    (h : writeBytes base k bytes s = (t, r)) (ha : ∀ i, i < bytes.length → a ≠ addrAt base (k + i)) :
    t.mem.read a = s.mem.read a := by
  induction bytes generalizing k s with
  | nil => cases h; rfl
  | cons v rest ih =>
    have h0 : a ≠ addrAt base k := ha 0 (by simp)
    unfold writeBytes engineWrite at h
    split at h
    · rename_i hw
      split at hw <;> cases hw
      cases h; exact Memory.read_write_ne _ h0
    · rename_i hw
      split at hw <;> cases hw
      rw [ih h fun i hi => by simpa [Nat.add_assoc, Nat.add_comm 1 i] using ha (i + 1) (by simpa using hi)]
      exact Memory.read_write_ne _ h0

/-- A region write raises nothing but IoFailure at one of its addresses, with data 1 (20_memory.md R64). -/
theorem writeBytes_error {base : Addr} {k : Nat} {bytes : List Byte} {s t : State} {e : CmdError}
    (h : writeBytes base k bytes s = (t, some e)) :
    ∃ i, i < bytes.length ∧ e = ⟨.ioFailure, addrAt base (k + i), 1#11⟩ ∧
      s.platform.busError (addrAt base (k + i)) .write = true := by
  induction bytes generalizing k s with
  | nil => cases h
  | cons v rest ih =>
    unfold writeBytes engineWrite at h
    split at h
    · rename_i hw
      split at hw <;> cases hw
      cases h; exact ⟨0, by simp, rfl, by assumption⟩
    · rename_i hw
      split at hw <;> cases hw
      obtain ⟨i, hi, he, hb⟩ := ih h
      refine ⟨i + 1, by simpa using hi, ?_, ?_⟩
      · rw [he]; congr 2; omega
      · rw [← hb]; congr 2; omega

/-- With no bus error a region write stores every byte. -/
theorem writeBytes_ok {base : Addr} {k : Nat} {bytes : List Byte} {s : State}
    (h : ∀ i, i < bytes.length → s.platform.busError (addrAt base (k + i)) .write = false) :
    ∃ t, writeBytes base k bytes s = (t, none) := by
  induction bytes generalizing k s with
  | nil => exact ⟨s, rfl⟩
  | cons v rest ih =>
    have h0 : s.platform.busError (addrAt base k) .write = false := h 0 (by simp)
    unfold writeBytes engineWrite
    simp only [h0, Bool.false_eq_true, if_false]
    exact ih fun i hi => by simpa [Nat.add_assoc, Nat.add_comm 1 i] using h (i + 1) (by simpa using hi)

/-- A region write that raised nothing stored its bytes in order. -/
theorem writeBytes_stored {base : Addr} {k : Nat} {bytes : List Byte} {s t : State}
    (h : writeBytes base k bytes s = (t, none)) (hs : Memory.wf s.mem) (hk : k + bytes.length ≤ 2 ^ 32) (i : Nat)
    (hi : i < bytes.length) : t.mem.read (addrAt base (k + i)) = bytes[i] := by
  induction bytes generalizing k s i with
  | nil => simp at hi
  | cons v rest ih =>
    unfold writeBytes engineWrite at h
    split at h
    · cases h
    · rename_i hw
      split at hw <;> cases hw
      simp only [List.length_cons] at hk
      cases i with
      | zero =>
        have : t.mem.read (addrAt base k) = (s.mem.write (addrAt base k) v).read (addrAt base k) :=
          writeBytes_outside h fun j hj e => by
            have := addrAt_inj (by omega) (by omega) e
            omega
        exact this.trans (Memory.read_write_same _ _ hs)
      | succ i =>
        have := ih h (Memory.write_wf _ _ hs) (by omega) i (by simpa using hi)
        simpa [Nat.add_assoc, Nat.add_comm 1 i] using this

/-- A writing command ends in its completion or in IoFailure; nothing else changes but the memory and the count of free
values. -/
theorem writeAndComplete_cases (base : Addr) (bytes : List Byte) (r0 r1 : Word) (s : State) :
    (∃ t, writeBytes base 0 bytes s = (t, none) ∧ writeAndComplete base bytes r0 r1 s = t.complete r0 r1) ∨
      ∃ t e, writeBytes base 0 bytes s = (t, some e) ∧ writeAndComplete base bytes r0 r1 s = t.raiseError e := by
  unfold writeAndComplete
  rcases h : writeBytes base 0 bytes s with ⟨t, _ | e⟩
  · exact .inl ⟨t, rfl, rfl⟩
  · exact .inr ⟨t, e, rfl, rfl⟩

theorem checkSource_eq_ok_iff {r : Region} : checkSource r = .ok () ↔ r.wraps = false := by
  unfold checkSource
  cases r.wraps <;> simp

theorem checkDest_eq_ok_iff {r : Region} : checkDest r = .ok () ↔ r.wraps = false := by
  unfold checkDest
  cases r.wraps <;> simp

/-- The region checks pass exactly when neither region wraps and they do not overlap (20_memory.md R66, R67). -/
theorem checkRegions_eq_ok_iff {src dst : Region} :
    checkRegions src dst = .ok () ↔ src.wraps = false ∧ dst.wraps = false ∧ src.overlaps dst = false := by
  unfold checkRegions checkSource checkDest
  cases src.wraps <;> cases dst.wraps <;> cases src.overlaps dst <;> simp

/-- The first error of a list of checks is no error exactly when every check passes (60_exceptions.md R234). -/
theorem firstError_eq_ok_iff {checks : List (Except CmdError Unit)} :
    firstError checks = .ok () ↔ ∀ c ∈ checks, c = .ok () := by
  induction checks with
  | nil => simp [firstError]
  | cons c rest ih => cases c <;> simp [firstError, ih]

/-- An error that comes first is some check's. -/
theorem firstError_mem {checks : List (Except CmdError Unit)} {e : CmdError} (h : firstError checks = .error e) :
    .error e ∈ checks := by
  induction checks with
  | nil => simp [firstError] at h
  | cons c rest ih =>
    cases c with
    | error d => simp_all [firstError]
    | ok u => exact List.mem_cons_of_mem _ (ih h)

@[simp] theorem checkTree_eq_ok_iff {s : State} : checkTree s = .ok () ↔ s.treeValid = true := by
  unfold checkTree
  cases s.treeValid <;> simp

@[simp] theorem checkCodes_eq_ok_iff {s : State} : checkCodes s = .ok () ↔ s.codesValid = true := by
  unfold checkCodes
  cases s.codesValid <;> simp

@[simp] theorem checkRoom_eq_ok_iff {cap : Word} {size : Nat} : checkRoom cap size = .ok () ↔ size ≤ cap.toNat := by
  unfold checkRoom
  split <;> simp <;> omega

/-- A command that ends in a check before any access touches no device (70_reset_and_hazards.md R276). -/
theorem touchesDevice_of_check_error {i : Instr} {s : State} {e : CmdError} (h : commandChecks i s = .error e) :
    touchesDevice i s = false := by
  simp [touchesDevice, passesChecks, h]

/-- With no device on the platform no command touches one. -/
theorem touchesDevice_of_no_device {i : Instr} {s : State} (h : s.platform.devices = []) : touchesDevice i s = false := by
  simp [touchesDevice, Platform.mapsDevice, h]

/-- The regions of the latched command are read from the latched state alone. -/
theorem State.latchedRegions_congr {s t : State} (hw : t.lcmd = s.lcmd) (h0 : t.larg0 = s.larg0) (h1 : t.larg1 = s.larg1)
    (h2 : t.larg2 = s.larg2) (h3 : t.larg3 = s.larg3) : t.latchedRegions = s.latchedRegions := by
  unfold State.latchedRegions commandRegions
  rw [hw]
  split
  · rfl
  · rename_i i _
    cases i <;> simp [sourceRegion, destRegion, h0, h1, h2, h3]

@[simp] theorem State.writeFreq_latchedRegions (s : State) (sym : Sym) (f : Word) :
    (s.writeFreq sym f).latchedRegions = s.latchedRegions := State.latchedRegions_congr rfl rfl rfl rfl rfl

@[simp] theorem State.writeFreqTable_latchedRegions (s : State) (table : Vector Word 256) :
    (s.writeFreqTable table).latchedRegions = s.latchedRegions := State.latchedRegions_congr rfl rfl rfl rfl rfl

@[simp] theorem State.installTree_latchedRegions (s : State) (a : Arena) :
    (s.installTree a).latchedRegions = s.latchedRegions := State.latchedRegions_congr rfl rfl rfl rfl rfl

@[simp] theorem State.dropTree_latchedRegions (s : State) : s.dropTree.latchedRegions = s.latchedRegions :=
  State.latchedRegions_congr rfl rfl rfl rfl rfl

@[simp] theorem State.installCodes_latchedRegions (s : State) (table : Vector CodeEntry 256) :
    (s.installCodes table).latchedRegions = s.latchedRegions := State.latchedRegions_congr rfl rfl rfl rfl rfl

/-- A writing command leaves its regions closed to the host. -/
theorem writeAndComplete_unobserved (base : Addr) (bytes : List Byte) (r0 r1 : Word) (s : State) :
    (writeAndComplete base bytes r0 r1 s).unobserved = s.latchedRegions ++ s.unobserved := by
  have keep : ∀ {t : State} {r : Option CmdError}, writeBytes base 0 bytes s = (t, r) →
      t.latchedRegions = s.latchedRegions ∧ t.unobserved = s.unobserved := by
    intro t r h
    rw [writeBytes_changes h]
    exact ⟨State.latchedRegions_congr rfl rfl rfl rfl rfl, rfl⟩
  rcases writeAndComplete_cases base bytes r0 r1 s with ⟨t, h, e⟩ | ⟨t, _, h, e⟩ <;> simp [e, keep h]

/-- The regions closed to the host: the running command's, and those of the commands not yet observed. -/
theorem State.mem_closedRegions {s : State} {r : CommandRegions} :
    r ∈ s.closedRegions ↔
      (s.eng = .busy ∧ ∃ i, decode s.lcmd = .ok i ∧ r = commandRegions i s) ∨ r ∈ s.unobserved := by
  unfold State.closedRegions State.runningRegions State.latchedRegions
  cases s.eng <;> cases decode s.lcmd <;> simp

/-- What one step can be: the engine's turn, or the first input on the state without it. -/
theorem step_cases (s : State) :
    (s.inputs = [] ∧ step s = engineTurn s) ∨
      ∃ i rest, s.inputs = i :: rest ∧ step s = takeInput i { s with inputs := rest } := by
  unfold step takeNext
  split
  · exact .inl ⟨by assumption, rfl⟩
  · exact .inr ⟨_, _, by assumption, rfl⟩

/-- What the engine's turn can be: waiting, an illegal command's completion, a fault over a device, or the command. -/
theorem engineTurn_cases (s : State) :
    (s.eng = .idle ∧ engineTurn s = .next s) ∨
      (s.eng = .busy ∧ ∃ r, decode s.lcmd = .error r ∧
        engineTurn s = .next (s.raiseError (illegalCommand s.lcmd r))) ∨
      (s.eng = .busy ∧ ∃ i, decode s.lcmd = .ok i ∧
        ((touchesDevice i s = true ∧ engineTurn s = .fault .regionMapsDevice) ∨
          (touchesDevice i s = false ∧ engineTurn s = exec i s))) := by
  unfold engineTurn runCommand
  cases s.eng with
  | idle => exact .inl ⟨rfl, rfl⟩
  | busy =>
    cases hd : decode s.lcmd with
    | error r => exact .inr (.inl ⟨rfl, r, rfl, rfl⟩)
    | ok i =>
      refine .inr (.inr ⟨rfl, i, rfl, ?_⟩)
      by_cases ht : touchesDevice i s = true
      · exact .inl ⟨ht, if_pos ht⟩
      · exact .inr ⟨by simpa using ht, if_neg ht⟩

end Sys2Proof.Machine
end

