-- ==== Sys2Proof/Laws/PerInstr.lean ====
section
/-! SUPPORT. Statements for all commands, made per command. -/

namespace Sys2Proof.Laws

/-- A command's word passes the three checks of 30_encoding.md R87, and its low byte is its opcode. -/
def CommandWord.Statement (i : Instr) : Prop :=
  i.wellFormed = true ∧ (encode i).extractLsb' 16 16 = 0#16 ∧ (encode i).extractLsb' 0 8 = i.opcode

theorem CommandWord.clrfreq : CommandWord.Statement .clrfreq := by
  unfold CommandWord.Statement
  decide

theorem CommandWord.setfreq (sym : Sym) : CommandWord.Statement (.setfreq sym) := by
  unfold CommandWord.Statement
  revert sym
  decide +kernel

theorem CommandWord.ldfreq : CommandWord.Statement .ldfreq := by
  unfold CommandWord.Statement
  decide

theorem CommandWord.build : CommandWord.Statement .build := by
  unfold CommandWord.Statement
  decide

theorem CommandWord.gencodes : CommandWord.Statement .gencodes := by
  unfold CommandWord.Statement
  decide

theorem CommandWord.rdcode (sym : Sym) : CommandWord.Statement (.rdcode sym) := by
  unfold CommandWord.Statement
  revert sym
  decide +kernel

theorem CommandWord.encode : CommandWord.Statement .encode := by
  unfold CommandWord.Statement
  decide

theorem CommandWord.decode : CommandWord.Statement .decode := by
  unfold CommandWord.Statement
  decide

theorem CommandWord.save : CommandWord.Statement .save := by
  unfold CommandWord.Statement
  decide

theorem CommandWord.load : CommandWord.Statement .load := by
  unfold CommandWord.Statement
  decide

end Sys2Proof.Laws
end

