-- ==== Sys2Proof/Tests/Slice0.lean ====
section
/-! SUPPORT. The model's own tests (expected values from the spec's examples and vectors, 95_test_vectors.md), the smoke
test of WellFormed, and for every statement with hypotheses a witness that meets them. -/

namespace Sys2Proof.Tests

open Sys2Proof Sys2Proof.Machine

set_option Elab.async false

/-! ## Helpers -/

/-- The next state of an outcome, or the reset state. -/
def nextOf : Host.Outcome State Fault Refusal → State
  | .next t => t
  | .fault _ => State.reset
  | .refused _ => State.reset

/-- Whether an outcome is a next state with a property. -/
def nextHas (p : State → Bool) : Host.Outcome State Fault Refusal → Bool
  | .next t => p t
  | .fault _ => false
  | .refused _ => false

/-- Whether an outcome is a certain fault. -/
def faultIs (f : Fault) : Host.Outcome State Fault Refusal → Bool
  | .next _ => false
  | .fault g => f == g
  | .refused _ => false

theorem eq_next_of_nextHas {p : State → Bool} {o : Host.Outcome State Fault Refusal} (h : nextHas p o = true) :
    o = .next (nextOf o) := by
  cases o with
  | next t => rfl
  | fault f => simp [nextHas] at h
  | refused r => simp [nextHas] at h

/-- The state after reset with a command word and operands latched, BUSY. -/
def busyWith (w a0 a1 a2 a3 : Word) : State :=
  { State.reset with lcmd := w, larg0 := a0, larg1 := a1, larg2 := a2, larg3 := a3, eng := .busy }

/-- A memory with the bytes of a list from a key on, 0 bytes left out. -/
def memOf : Nat → List Byte → Memory
  | _, [] => []
  | a, v :: rest => if v = 0#8 then memOf (a + 1) rest else (a, v) :: memOf (a + 1) rest

/-- The classic frequencies of 95_test_vectors.md V1, every FW set. -/
def classicFreq : Vector Word 256 :=
  Vector.ofFn fun k => if k = 0x61 then 5#32 else if k = 0x62 then 9#32 else if k = 0x63 then 12#32
    else if k = 0x64 then 13#32 else if k = 0x65 then 16#32 else if k = 0x66 then 45#32 else 0#32

def written (s : State) (freq : Vector Word 256) : State :=
  { s with freq := freq, fw := Vector.replicate 256 true }

/-- The arena of 95_test_vectors.md V1, written out. -/
def classicNodes : List Node :=
  [.leaf 0x61#8 5, .leaf 0x62#8 9, .leaf 0x63#8 12, .leaf 0x64#8 13, .leaf 0x65#8 16, .leaf 0x66#8 45,
    .internal 0 1 14, .internal 2 3 25, .internal 6 4 30, .internal 7 8 55, .internal 5 9 100]

def arenaOf (nodes : List Node) (root : NodeIdx) (nleaves : BitVec 9) : Arena :=
  ⟨Vector.ofFn fun k => nodes.getD k.val (.leaf 0 0), root, nleaves⟩

def classicArena : Arena := arenaOf classicNodes 10 6

/-- The tree of 95_test_vectors.md V1. -/
def classicTree : HuffTree :=
  .node (.leaf 0x66#8) (.node (.node (.leaf 0x63#8) (.leaf 0x64#8))
    (.node (.node (.leaf 0x61#8) (.leaf 0x62#8)) (.leaf 0x65#8)))

/-- A state with the classic tree. -/
def withTree (s : State) : State := { s with treeValid := true, arena := classicArena }

/-- A state with the classic tree and its codes. -/
def withCodes (s : State) : State := { withTree s with codesValid := true, code := codeTable classicTree }

/-- A state with the single-leaf tree of 95_test_vectors.md V6. -/
def withLeafTree (s : State) : State := { s with treeValid := true, arena := arenaOf [.leaf 0x78#8 1] 0 1 }

theorem classic_holds : HoldsTree classicArena classicTree := ⟨by decide +kernel, by decide +kernel, by decide +kernel⟩

theorem withTree_legal (s : State) : TreeLegal (withTree s) := fun _ => ⟨classicTree, classic_holds⟩

theorem withCodes_legal (s : State) : CodesLegal (withCodes s) := fun _ => ⟨rfl, classicTree, classic_holds, rfl⟩

theorem withCodes_tree_legal (s : State) : TreeLegal (withCodes s) := fun _ => ⟨classicTree, classic_holds⟩

/-- "abcdef" at 0x1000, as in 95_test_vectors.md V8. -/
def abcdef : Memory := memOf 0x1000 [0x61#8, 0x62#8, 0x63#8, 0x64#8, 0x65#8, 0x66#8]

/-- ENCODE of 95_test_vectors.md V8, issued. -/
def encodeV8 : State := withCodes { busyWith 0x20#32 0x1000#32 6#32 0x2000#32 16#32 with mem := abcdef }

/-- DECODE of 95_test_vectors.md V9, issued. -/
def decodeV9 : State :=
  withTree { busyWith 0x21#32 0x3100#32 18#32 0x4000#32 64#32 with mem := memOf 0x3100 [0xCD#8, 0x97#8, 0x80#8] }

/-- DECODE of 95_test_vectors.md V10, issued. -/
def decodeV10 : State :=
  withTree { busyWith 0x21#32 0x3100#32 3#32 0x4000#32 64#32 with mem := memOf 0x3100 [0xC0#8] }

/-- DECODE of 0x40 with the single-leaf tree, 95_test_vectors.md V27, issued. -/
def decodeCorrupt : State :=
  withLeafTree { busyWith 0x21#32 0x8300#32 2#32 0x8400#32 4#32 with mem := memOf 0x8300 [0x40#8] }

/-- SAVE of 95_test_vectors.md V3, issued. -/
def saveV3 : State := withTree (busyWith 0x30#32 0#32 0#32 0x3000#32 17#32)

/-- The serialized tree of 95_test_vectors.md V3. -/
def savedV3 : List Byte :=
  [0x00#8, 0x01#8, 0x66#8, 0x00#8, 0x00#8, 0x01#8, 0x63#8, 0x01#8, 0x64#8, 0x00#8, 0x00#8, 0x01#8, 0x61#8, 0x01#8,
    0x62#8, 0x01#8, 0x65#8]

/-- LOAD of some bytes at 0x3000, issued. -/
def loadOf (bytes : List Byte) (avail : Word) : State :=
  { busyWith 0x31#32 0x3000#32 avail 0#32 0#32 with mem := memOf 0x3000 bytes }

/-- RDCODE 'a' of 95_test_vectors.md V20, issued, with a capacity. -/
def rdcodeV20 (cap : Word) : State := withCodes (busyWith 0x6112#32 0#32 0#32 0x2000#32 cap)

/-- The frequency image of 95_test_vectors.md V12 at 0x1000, LDFREQ issued. -/
def ldfreqV12 : State :=
  { busyWith 0x03#32 0x1000#32 0#32 0#32 0#32 with mem := [(0x1184, 0x05#8), (0x1198, 0x2D#8)] }

/-- A platform on which the accesses of one kind to one address fail. -/
def failing (a : Addr) (kind : AccessKind) : Platform := ⟨0, [⟨⟨a, 1⟩, kind⟩], []⟩

/-! ## WellFormed: an ill-formed term for each check (30_encoding.md R87, R88) -/

theorem test_wellFormed_refuses_unassigned_opcode : Fields.wellFormed ⟨0x04#8, 0x00#8, 0x0000#16⟩ = false := by decide

theorem test_wellFormed_refuses_reserved : Fields.wellFormed ⟨0x10#8, 0x00#8, 0x0001#16⟩ = false := by decide

theorem test_wellFormed_refuses_misplaced_sym : Fields.wellFormed ⟨0x10#8, 0x01#8, 0x0000#16⟩ = false := by decide

theorem test_wellFormed_takes_setfreq : Instr.wellFormed (.setfreq 0x61#8) = true := by decide

/-! ## Decode: one word of every constructor, from 30_encoding.md R84, and the illegal words of V28 -/

theorem test_decode_clrfreq : decode 0b00000000000000000000000000000001#32 = .ok .clrfreq := by rfl

theorem test_decode_setfreq : decode 0b00000000000000000111100000000010#32 = .ok (.setfreq 0x78#8) := by rfl

theorem test_decode_ldfreq : decode 0b00000000000000000000000000000011#32 = .ok .ldfreq := by rfl

theorem test_decode_build : decode 0b00000000000000000000000000010000#32 = .ok .build := by rfl

theorem test_decode_gencodes : decode 0b00000000000000000000000000010001#32 = .ok .gencodes := by rfl

theorem test_decode_rdcode : decode 0b00000000000000000110000100010010#32 = .ok (.rdcode 0x61#8) := by rfl

theorem test_decode_encode : decode 0b00000000000000000000000000100000#32 = .ok .encode := by rfl

theorem test_decode_decode : decode 0b00000000000000000000000000100001#32 = .ok .decode := by rfl

theorem test_decode_save : decode 0b00000000000000000000000000110000#32 = .ok .save := by rfl

theorem test_decode_load : decode 0b00000000000000000000000000110001#32 = .ok .load := by rfl

theorem test_decode_refuses_opcode_first : decode 0x00010104#32 = .error .unassignedOpcode := by rfl

theorem test_decode_refuses_rsv_before_sym : decode 0x00010110#32 = .error .nonzeroRsv := by rfl

theorem test_decode_refuses_sym_on_build : decode 0x00000110#32 = .error .nonzeroSym := by rfl

theorem test_decodeTableWord_rdcode : decodeTableWord 32 0x6112 = some (.rdcode 0x61#8) := by decide

theorem test_decodeTableWord_refuses_a_longer_number : decodeTableWord 40 0x0100000010 = none := by decide

/-! ## One step of each command -/

/-- 40_frequency_table.md R100 after V1. -/
theorem test_clrfreq_clears :
    nextHas (fun t => freqOf t.freq 0x66#8 == 0#32 && t.fw.toList.all id && t.statusWord == 0x2#32)
      (exec .clrfreq { busyWith 1#32 0#32 0#32 0#32 0#32 with freq := classicFreq }) = true := by decide +kernel

/-- V11. -/
theorem test_setfreq_writes_x :
    nextHas (fun t => freqOf t.freq 0x78#8 == 1#32 && freqOf t.freq 0x79#8 == 0#32 && t.fw[0x78] && !t.fw[0x79])
      (exec (.setfreq 0x78#8) (busyWith 0x7802#32 1#32 0#32 0#32 0#32)) = true := by decide +kernel

/-- V12. -/
theorem test_ldfreq_V12 :
    nextHas (fun t => freqOf t.freq 0x61#8 == 5#32 && freqOf t.freq 0x66#8 == 45#32 && freqOf t.freq 0x65#8 == 0#32)
      (exec .ldfreq ldfreqV12) = true := by decide +kernel

/-- V13: base 0xFFFFFC01 wraps. -/
theorem test_ldfreq_wrap :
    nextHas (fun t => t.statusWord == 0xB02#32 && t.errPos == 0xFFFFFC01#32 && t.errData == 0#32 && !t.fw[0])
      (exec .ldfreq (busyWith 3#32 0xFFFFFC01#32 0#32 0#32 0#32)) = true := by decide +kernel

/-- V1. -/
theorem test_build_V1 :
    nextHas (fun t => t.arena.node.toList.take 11 == classicNodes && t.arena.root == 10 && t.statusWord == 0x6#32 &&
        t.result0 == 6#32 && t.infoWord == 0x6#32)
      (exec .build (written (busyWith 0x10#32 0#32 0#32 0#32 0#32) classicFreq)) = true := by decide +kernel

/-- V18: EmptyAlphabet. -/
theorem test_build_V18 :
    nextHas (fun t => t.statusWord == 0x102#32 && t.result0 == 0#32 && t.infoWord == 0#32)
      (exec .build (written (withCodes (busyWith 0x10#32 0#32 0#32 0#32 0#32)) (Vector.replicate 256 0#32))) = true := by
  decide +kernel

/-- V2. -/
theorem test_gencodes_V2 :
    nextHas (fun t => (codeOf t.code 0x61#8).path == [true, true, false, false] &&
        (codeOf t.code 0x64#8).path == [true, false, true] && (codeOf t.code 0x66#8).path == [false] &&
        (codeOf t.code 0x7A#8).len == 0#8 && t.statusWord == 0xE#32 && t.result0 == 6#32 && t.result1 == 4#32 &&
        t.infoWord == 0x00040006#32)
      (exec .gencodes (withTree (busyWith 0x11#32 0#32 0#32 0#32 0#32))) = true := by decide +kernel

/-- V6: the single leaf's code is "0". -/
theorem test_gencodes_V6 :
    nextHas (fun t => codeOf t.code 0x78#8 == ⟨1#8, 0#255⟩ && t.result0 == 1#32 && t.result1 == 1#32)
      (exec .gencodes (withLeafTree (busyWith 0x11#32 0#32 0#32 0#32 0#32))) = true := by decide +kernel

/-- V20. -/
theorem test_rdcode_V20 :
    nextHas (fun t => t.mem.read 0x2000#32 == 0xC0#8 && t.mem.read 0x2001#32 == 0#8 && t.result0 == 4#32)
      (exec (.rdcode 0x61#8) (rdcodeV20 32#32)) = true := by decide +kernel

/-- V20: a capacity of 31. -/
theorem test_rdcode_overflow :
    nextHas (fun t => t.statusWord == 0xA0E#32 && t.errPos == 32#32 && t.mem == [])
      (exec (.rdcode 0x61#8) (rdcodeV20 31#32)) = true := by decide +kernel

/-- V8. -/
theorem test_encode_V8 :
    nextHas (fun t => regionBytes t 0x2000#32 4 == [0xCD#8, 0x97#8, 0x80#8, 0x00#8] && t.result0 == 3#32 &&
        t.result1 == 18#32)
      (exec .encode encodeV8) = true := by decide +kernel

/-- V26: "abz". -/
theorem test_encode_unknown_symbol :
    nextHas (fun t => t.statusWord == 0x20E#32 && t.errPos == 2#32 && t.errData == 0x7A#32 && t.mem.read 0x2000#32 == 0#8)
      (exec .encode (withCodes { busyWith 0x20#32 0x1000#32 3#32 0x2000#32 16#32 with
        mem := memOf 0x1000 [0x61#8, 0x62#8, 0x7A#8] })) = true := by decide +kernel

/-- V9. -/
theorem test_decode_V9 :
    nextHas (fun t => regionBytes t 0x4000#32 7 == [0x61#8, 0x62#8, 0x63#8, 0x64#8, 0x65#8, 0x66#8, 0x00#8] &&
        t.result0 == 6#32 && t.result1 == 3#32)
      (exec .decode decodeV9) = true := by decide +kernel

/-- V10. -/
theorem test_decode_V10 :
    nextHas (fun t => t.statusWord == 0x506#32 && t.errPos == 3#32 && t.errData == 3#32 && t.mem.read 0x4000#32 == 0#8)
      (exec .decode decodeV10) = true := by decide +kernel

/-- V3. -/
theorem test_save_V3 :
    nextHas (fun t => regionBytes t 0x3000#32 17 == savedV3 && t.result0 == 17#32 && t.result1 == 6#32)
      (exec .save saveV3) = true := by decide +kernel

/-- V25: a capacity of 16. -/
theorem test_save_overflow :
    nextHas (fun t => t.statusWord == 0xA06#32 && t.errPos == 17#32 && t.mem == [])
      (exec .save (withTree (busyWith 0x30#32 0#32 0#32 0x3000#32 16#32))) = true := by decide +kernel

/-- V3: the arena after LOAD, in preorder. -/
theorem test_load_V3 :
    nextHas (fun t => t.arena.node.toList.take 4 ==
          [.internal 1 2 0, .leaf 0x66#8 0, .internal 3 6 0, .internal 4 5 0] && t.arena.root == 0 &&
        t.statusWord == 0x6#32 && t.result0 == 17#32 && t.result1 == 6#32)
      (exec .load (loadOf savedV3 17#32)) = true := by decide +kernel

/-- V23: a duplicate symbol. -/
theorem test_load_duplicate :
    nextHas (fun t => t.statusWord == 0x302#32 && t.errPos == 4#32 && t.errData == 0x361#32)
      (exec .load (loadOf [0x00#8, 0x01#8, 0x61#8, 0x01#8, 0x61#8] 5#32)) = true := by decide +kernel

/-- V28: an illegal word, from its latch to its completion. -/
theorem test_step_illegal_word :
    nextHas (fun t => t.statusWord == 0x702#32 && t.errPos == 0x00010010#32 && t.errData == 3#32)
      (step (State.reset.withFetchWord 32 0x00010010)) = true := by decide +kernel

/-- V29: SAVE issued after V2, and a second CMD write. -/
theorem test_step_issue_then_lost :
    nextHas (fun t => t.statusWord == 0xD#32 && nextHas (fun u => u.statusWord == 0x1D#32 && u.lcmd == 0x30#32) (step t))
      (step { withCodes State.reset with
        done := true, inputs := [.host (.regWrite 0 32 0x30#32), .host (.regWrite 0 32 0x31#32)] }) = true := by
  decide +kernel

/-- V29: CTRL reads 1 after a write of all ones; a 16-bit access and offset 0x06 get a bus error. -/
theorem test_step_register_accesses :
    nextHas (fun t => t.ctrlWord == 1#32) (hostAccess (.regWrite 0x08 32 0xFFFFFFFF#32) State.reset) = true ∧
      nextHas (fun t => t.response == .busError) (hostAccess (.regRead 0x04 16) State.reset) = true ∧
      nextHas (fun t => t.response == .busError) (hostAccess (.regRead 0x06 32) State.reset) = true := by
  decide +kernel

/-- 20_memory.md R71(d): after its completion a command's destination stays closed to the host until a STATUS read shows
BUSY = 0. -/
theorem test_host_closed_until_observed :
    nextHas (fun t => faultIs (.exclusionViolated 0x3000#32) (hostAccess (.memRead 0x3000#32) t) &&
        nextHas (fun u => nextHas (fun v => v.response == .byte 0x00#8) (hostAccess (.memRead 0x3000#32) u))
          (hostAccess (.regRead 0x04 32) t))
      (exec .save saveV3) = true := by decide +kernel

/-- V30: IRQ rises with a completion when enabled. -/
theorem test_irq_after_completion :
    nextHas State.irq (exec .clrfreq { busyWith 1#32 0#32 0#32 0#32 0#32 with ie := true }) = true := by decide +kernel

/-- 60_exceptions.md R241: a CMD write in the completion cycle is lost, and the command completes. -/
theorem test_step_same_cycle :
    nextHas (fun t => t.statusWord == 0x12#32)
      (step { busyWith 1#32 0#32 0#32 0#32 0#32 with inputs := [.hostWithEngine (.regWrite 0 32 0x10#32)] }) = true := by
  decide +kernel

/-- 30_encoding.md R95: ACK writes 0x12 to STATUS, which clears DONE and CMDLOST. -/
theorem test_hostAck :
    hostAck.flatMap (HostStmt.accesses 0x40) = [.regWrite 0x44 32 0x12#32] ∧
      (State.writeStatus { State.reset with done := true, cmdLost := true } 0x12#32).statusWord = 0#32 := by
  decide +kernel

/-! ## Witnesses: for each statement with hypotheses, a state and operands that meet them; where a statement has several
clauses, one for each, at the ends of their ranges -/

theorem witness_DecodeInvertsEncode : decode 0x6102#32 = .ok (.setfreq 0x61#8) ∧ encode (.rdcode 0xFF#8) = 0xFF12#32 :=
  ⟨rfl, by decide⟩

theorem witness_DecodeAgreesWithOpcodeTable :
    decode 0x0000FF12#32 = .ok (.rdcode 0xFF#8) ∧ decode 0x00010010#32 = .error .nonzeroRsv := ⟨rfl, rfl⟩

/-- One busy state for each clause; the last two are with SYM as an operand and with SYM 0. -/
theorem witness_EngineDecodesInOrder :
    (busyWith 0x00010104#32 0 0 0 0).eng = .busy ∧ (Fields.ofWord 0x00010104#32).opc ∉ assignedOpcodes ∧
    (Fields.ofWord 0x00010110#32).opc ∈ assignedOpcodes ∧ (Fields.ofWord 0x00010110#32).rsv ≠ 0#16 ∧
    (let f := Fields.ofWord 0x00000110#32;
      f.opc ∈ assignedOpcodes ∧ f.rsv = 0#16 ∧ f.opc ≠ 0x02#8 ∧ f.opc ≠ 0x12#8 ∧ f.sym ≠ 0#8) ∧
    (let f := Fields.ofWord 0x0000FF12#32;
      f.opc ∈ assignedOpcodes ∧ f.rsv = 0#16 ∧ (f.opc = 0x02#8 ∨ f.opc = 0x12#8 ∨ f.sym = 0#8)) ∧
    (let f := Fields.ofWord 0x00000031#32;
      f.opc ∈ assignedOpcodes ∧ f.rsv = 0#16 ∧ (f.opc = 0x02#8 ∨ f.opc = 0x12#8 ∨ f.sym = 0#8)) := by decide

/-- A platform without bus errors on which every address from 0x2000 on, for 0x100 bytes, is a device's. -/
def deviceAt2000 : Platform := ⟨0x40000000, [], [⟨0x2000#32, 0x100⟩]⟩

/-- SAVE without a tree, GENCODES' and ENCODE's preconditions, a region that wraps and an output with no room, all with
regions that map a device. -/
def endsInChecks : List (Instr × State) :=
  [(.save, busyWith 0x30#32 0 0 0x2000#32 17#32), (.encode, busyWith 0x20#32 0x2000#32 6#32 0x3000#32 16#32),
    (.encode, withCodes (busyWith 0x20#32 0x2000#32 6#32 0xFFFFFFF8#32 16#32)),
    (.save, withTree (busyWith 0x30#32 0 0 0x2000#32 16#32)), (.rdcode 0x61#8, rdcodeV20 31#32)].map
    (fun c => (c.1, { c.2 with platform := deviceAt2000 }))

/-- 60_exceptions.md R234, 70_reset_and_hazards.md R276: NoTree, NoCodes, BadRegion and OutputOverflow come before any
access, whatever the regions map. -/
theorem test_checks_come_before_devices :
    endsInChecks.map (fun c => nextHas (fun t => t.done && t.mem == c.2.mem) (step c.2)) = List.replicate 5 true ∧
      endsInChecks.map (fun c => (nextOf (step c.2)).err) = [8#4, 9#4, 11#4, 10#4, 10#4] := by decide +kernel

/-- 20_memory.md R65: a command that writes, or reads, a device's region; and an ENCODE that fails in pass 1 and writes
nothing. -/
theorem test_device_regions_fault :
    (let on := fun s : State => { s with platform := deviceAt2000 };
      faultIs .regionMapsDevice (step (on (rdcodeV20 32#32))) = true ∧
        faultIs .regionMapsDevice (step (on { encodeV8 with larg0 := 0x20FF#32, larg2 := 0x3000#32 })) = true ∧
        faultIs .regionMapsDevice (step (on encodeV8)) = true ∧
        nextHas (fun t => t.err == 2#4) (step (on { encodeV8 with mem := memOf 0x1000 [0x7A#8] })) = true) := by
  decide +kernel

theorem witness_StepRunsLatchedCommand :
    (let s : State := { encodeV8 with inputs := [.engine, .reset] };
      s.eng = .busy ∧ decode s.lcmd = .ok .encode ∧ touchesDevice .encode s = false ∧ s.inputs = .engine :: [.reset]) ∧
    (encodeV8.eng = .busy ∧ decode encodeV8.lcmd = .ok .encode ∧ touchesDevice .encode encodeV8 = false ∧
      encodeV8.inputs = []) ∧
    (∀ c ∈ endsInChecks, c.2.eng = .busy ∧ decode c.2.lcmd = .ok c.1 ∧ c.2.inputs = [] ∧
      nextHas (fun t => t.err == 8#4 || t.err == 9#4 || t.err == 11#4 || t.err == 10#4) (exec c.1 c.2) = true) ∧
    touchesDevice .encode (encodeV8.issue (encode .encode)) = false := by
  refine ⟨⟨rfl, rfl, ?_, rfl⟩, ⟨rfl, rfl, ?_, rfl⟩, ?_, ?_⟩ <;> decide +kernel

/-- A host write of CMD on a platform with REG_BASE 0x40000000. -/
def cmdWrite (s : State) (w : Word) : State :=
  { s with platform := ⟨0x40000000, [], []⟩, inputs := [.host (.regWrite 0x40000000 32 w)] }

theorem witness_IssueLatchesCommandAndOperands :
    (cmdWrite State.reset 0x20#32).eng = .idle ∧
      (cmdWrite State.reset 0x20#32).inputs =
        .host (.regWrite (cmdWrite State.reset 0x20#32).platform.regBase 32 0x20#32) :: [] := ⟨rfl, rfl⟩

theorem witness_CommandWriteIssuesOrIsLost :
    ((cmdWrite State.reset 0x20#32).inputs =
        .host (.regWrite (cmdWrite State.reset 0x20#32).platform.regBase 32 0x20#32) :: [] ∧
      (cmdWrite State.reset 0x20#32).eng = .idle) ∧
    ((cmdWrite encodeV8 0x20#32).inputs =
        .host (.regWrite (cmdWrite encodeV8 0x20#32).platform.regBase 32 0x20#32) :: [] ∧
      (cmdWrite encodeV8 0x20#32).eng = .busy) := ⟨⟨rfl, rfl⟩, ⟨rfl, rfl⟩⟩

theorem witness_InfoShowsLeavesAndLongestCode :
    State.reset.codesValid = false ∧ (withCodes State.reset).codesValid = true ∧
      (withCodes State.reset).treeValid = true ∧ TreeLegal (withCodes State.reset) ∧ CodesLegal (withCodes State.reset) :=
  ⟨rfl, rfl, rfl, withCodes_tree_legal _, withCodes_legal _⟩

theorem witness_InterruptFollowsEnableAndDone :
    exec .clrfreq encodeV8 = .next (nextOf (exec .clrfreq encodeV8)) ∧ (0x2#32).getLsbD 1 = true := ⟨rfl, rfl⟩

/-- The offsets and widths at the ends of each clause. -/
theorem witness_RegisterAccessRules :
    (0x00 ≤ 0xFF ∧ 16 ≠ 32) ∧ (0xFF ≤ 0xFF ∧ 0xFF % 4 ≠ 0) ∧ (0xFC ≤ 0xFF ∧ 0xFC % 4 = 0 ∧ 0x30 ≤ 0xFC) ∧
      (0x30 ≤ 0xFF ∧ 0x30 % 4 = 0 ∧ 0x30 ≤ 0x30) ∧ (0x1C ≤ 0xFF ∧ 0x1C % 4 = 0 ∧ 0x1C ≤ 0x1C) ∧
      (0x04 ≤ 0xFF ∧ 0x04 % 4 = 0) := by decide

/-- A busy CLRFREQ with one input in its completion cycle. -/
def sameCycle (op : HostOp) : State := { busyWith 0x01#32 0 0 0 0 with inputs := [.hostWithEngine op] }

theorem witness_HostComesFirstInTheCompletionCycle :
    (sameCycle (.regWrite 0 32 0x10#32)).eng = .busy ∧
    (sameCycle (.regWrite 0 32 0x10#32)).inputs =
      .hostWithEngine (.regWrite (sameCycle (.regWrite 0 32 0x10#32)).platform.regBase 32 0x10#32) :: [] ∧
    step (sameCycle (.regWrite 0 32 0x10#32)) = .next (nextOf (step (sameCycle (.regWrite 0 32 0x10#32)))) ∧
    step (sameCycle (.regWrite 4 32 0x2#32)) = .next (nextOf (step (sameCycle (.regWrite 4 32 0x2#32)))) ∧
    step (sameCycle (.regRead 4 32)) = .next (nextOf (step (sameCycle (.regRead 4 32)))) ∧
    (let s := sameCycle (.memWrite 0x10#32 0x5A#8);
      s.inputs = .hostWithEngine (.memWrite 0x10#32 0x5A#8) :: [] ∧
        hostAccess (.memWrite 0x10#32 0x5A#8) { s with inputs := [] } =
          .next (nextOf (hostAccess (.memWrite 0x10#32 0x5A#8) { s with inputs := [] }))) :=
  ⟨rfl, rfl, rfl, rfl, rfl, rfl, rfl⟩

theorem encodeV8_next : nextHas (fun t => decide (t.err = 0#4 ∧ t.result1 = 18#32 ∧ t.result0 = 3#32)) (exec .encode encodeV8) = true := by
  decide +kernel

/-- After an ENCODE with V8's operands, before the host has observed its completion. -/
def encodeOver : State :=
  { State.reset with
    done := true, ie := true, unobserved := [⟨⟨0x1000#32, 6⟩, ⟨0x2000#32, 16⟩⟩] }

/-- The first and last bytes of ENCODE's regions and the bytes just past them, while it runs and once it is over; and each
observation. -/
theorem witness_HostMustStayOutOfRunningRegions :
    (let r : CommandRegions := ⟨sourceRegion .encode encodeV8, destRegion .encode encodeV8⟩;
      encodeV8.eng = .busy ∧ decode encodeV8.lcmd = .ok .encode ∧ (∀ a, encodeV8.platform.isDevice a = false) ∧
        (∀ a, encodeOver.platform.isDevice a = false) ∧ r ∈ encodeOver.unobserved ∧
        r.source.contains 0x1000#32 = true ∧ r.source.contains 0x1005#32 = true ∧
        r.source.contains 0x1006#32 = false ∧ r.dest.contains 0x1006#32 = false ∧
        r.dest.contains 0x2000#32 = true ∧ r.dest.contains 0x200F#32 = true ∧ r.dest.contains 0x2010#32 = false) ∧
    (∀ r, ((encodeOver.eng = .busy ∧ ∃ i, decode encodeOver.lcmd = .ok i ∧
        r = ⟨sourceRegion i encodeOver, destRegion i encodeOver⟩) ∨ r ∈ encodeOver.unobserved) →
      r.source.contains 0x2010#32 = false ∧ r.dest.contains 0x2010#32 = false) ∧
    exec .encode encodeV8 = .next (nextOf (exec .encode encodeV8)) ∧
    hostAccess (.regRead (encodeOver.platform.regBase + 0x04) 32) encodeOver =
      .next (nextOf (hostAccess (.regRead 0x04 32) encodeOver)) ∧
    hostAccess .irqLook encodeOver = .next (nextOf (hostAccess .irqLook encodeOver)) := by
  refine ⟨⟨rfl, rfl, fun _ => rfl, fun _ => rfl, List.mem_singleton.2 rfl, ?_⟩, ?_, eq_next_of_nextHas encodeV8_next, rfl, rfl⟩
  · decide +kernel
  · rintro r (⟨h, -⟩ | h)
    · exact absurd h (by decide)
    · rw [List.mem_singleton.1 h]
      decide +kernel

theorem witness_ResetAbandonsTheCommand :
    (let s : State := { encodeV8 with inputs := [.reset] };
      s.inputs = .reset :: [] ∧
        ∀ i, s.eng = .busy → decode s.lcmd = .ok i → (destRegion i s).contains 0x2010#32 = false) := by
  refine ⟨rfl, fun i _ h => ?_⟩
  obtain rfl : Instr.encode = i := by
    have : decode encodeV8.lcmd = .ok .encode := rfl
    exact Except.ok.inj (this.symm.trans h)
  decide +kernel

theorem witness_SetfreqWritesOneEntry : (0xFF#8 : Sym) ≠ 0x00#8 := by decide

theorem witness_LdfreqLoadsTheImage : LdfreqReady ldfreqV12 ∧ LdfreqReady { ldfreqV12 with larg0 := 0xFFFFFC00#32 } := by
  decide +kernel

/-- Reads fail from 0x10FF on, so the first failing read of the image at 0x1000 is at offset 255; and at offset 0. -/
theorem witness_LdfreqFailureKeepsTheTable :
    2 ^ 32 < ({ ldfreqV12 with larg0 := 0xFFFFFC01#32 } : State).larg0.toNat + 1024 ∧
    (let s : State := { ldfreqV12 with platform := ⟨0, [⟨⟨0x10FF#32, 8⟩, .read⟩], []⟩ };
      s.larg0.toNat + 1024 ≤ 2 ^ 32 ∧ 255 < 1024 ∧ NoBusError s s.larg0 255 .read ∧
        s.platform.busError (addrAt s.larg0 255) .read = true) ∧
    (let s : State := { ldfreqV12 with platform := failing 0x13FF#32 .read };
      s.larg0.toNat + 1024 ≤ 2 ^ 32 ∧ 1023 < 1024 ∧ NoBusError s s.larg0 1023 .read ∧
        s.platform.busError (addrAt s.larg0 1023) .read = true) := by decide +kernel

/-- BUILD of 95_test_vectors.md V1, issued. -/
def buildV1 : State := written (busyWith 0x10#32 0 0 0 0) classicFreq

theorem witness_BuildMakesATreeOfTheAlphabet : buildV1.freqWritten = true ∧ ∃ sym, freqOf buildV1.freq sym ≠ 0#32 :=
  ⟨by decide +kernel, 0x66#8, by decide +kernel⟩

theorem witness_BuildOfEmptyTableFails :
    (written State.reset (Vector.replicate 256 0#32)).freqWritten = true ∧
      ∀ sym, freqOf (written State.reset (Vector.replicate 256 0#32)).freq sym = 0#32 := by decide +kernel

theorem witness_BuildOfUnwrittenTableFaults : State.reset.fw[(0 : Fin 256)] = false ∧ State.reset.fw[(255 : Fin 256)] = false := by
  decide +kernel

theorem witness_MergeTakesTheTwoLeastKeys :
    (let b := builderStart classicFreq State.reset.arena.node;
      b.pool.Nodup ∧ 2 ≤ b.pool.length ∧ b.next < 511) ∧
    (let b : Builder := ⟨State.reset.arena.node, [508, 509], 510⟩;
      b.pool.Nodup ∧ 2 ≤ b.pool.length ∧ b.next < 511) := by decide +kernel

/-- Six leaves: leaf nodes at 0 and 5, internal nodes at 6 and 10; and one leaf. -/
theorem witness_BuiltArenaShape :
    6 = (alphabet classicFreq).length ∧ 0 < 6 ∧ ((0 : NodeIdx).val < 6 ∧ (5 : NodeIdx).val < 6) ∧
      (6 ≤ (6 : NodeIdx).val ∧ (6 : NodeIdx).val ≤ 2 * 6 - 2) ∧ (6 ≤ (10 : NodeIdx).val ∧ (10 : NodeIdx).val ≤ 2 * 6 - 2) ∧
      1 = (alphabet (State.reset.freq.set 0x78 1#32)).length := by decide +kernel

theorem buildV1_legal : TreeLegal buildV1 := fun h => absurd (h : false = true) (by decide)

theorem buildV1_next : nextHas (fun t => t.treeValid && decide (t.arena.tree = some classicTree)) (exec .build buildV1) = true := by
  decide +kernel

theorem witness_BuildDependsOnFreqAlone :
    (let s := buildV1;
      let s' := written (withLeafTree State.reset) classicFreq;
      s.freq = s'.freq ∧ exec .build s = .next (nextOf (exec .build s)) ∧
        exec .build s' = .next (nextOf (exec .build s'))) :=
  ⟨rfl, eq_next_of_nextHas buildV1_next, eq_next_of_nextHas (p := fun t => t.treeValid) (by decide +kernel)⟩

theorem witness_BuiltTreeIsOptimal :
    (let t := nextOf (exec .build buildV1);
      exec .build buildV1 = .next t ∧ t.treeValid = true ∧ t.arena.tree = some classicTree) ∧
      classicTree.symbols.Nodup ∧ ∀ sym, sym ∈ classicTree.symbols ↔ freqOf buildV1.freq sym ≠ 0#32 := by
  have h := buildV1_next
  have hn := eq_next_of_nextHas h
  rw [hn] at h
  simp only [nextHas, Bool.and_eq_true, decide_eq_true_eq] at h
  exact ⟨⟨hn, h.1, h.2⟩, by decide +kernel, by decide +kernel⟩

theorem witness_GencodesGivesEachLeafItsPath :
    (withTree State.reset).treeValid = true ∧ HoldsTree (withTree State.reset).arena classicTree ∧
      (0x61#8, [true, true, false, false]) ∈ classicTree.codes ∧ 0x7A#8 ∉ classicTree.symbols ∧
      (codeOf (codeTable classicTree) 0x61#8).len.toNat ≤ 4 :=
  ⟨rfl, classic_holds, by decide, by decide, by decide +kernel⟩

theorem leaf_holds : HoldsTree (arenaOf [.leaf 0x78#8 1] 0 1) (.leaf 0x78#8) :=
  ⟨by decide +kernel, by decide +kernel, by decide +kernel⟩

/-- Two leaves and more, and one leaf. -/
theorem witness_CodeTableIsACompletePrefixCode :
    (let s := withCodes State.reset;
      CodesLegal s ∧ s.codesValid = true ∧ s.arena.tree = some classicTree ∧ 2 ≤ s.arena.nleaves.toNat) ∧
    (let s : State := { withLeafTree State.reset with codesValid := true, code := codeTable (.leaf 0x78#8) };
      CodesLegal s ∧ s.codesValid = true ∧ s.arena.tree = some (.leaf 0x78#8) ∧ ¬ 2 ≤ s.arena.nleaves.toNat) :=
  ⟨⟨withCodes_legal _, rfl, classic_holds.shape, by decide +kernel⟩,
    ⟨fun _ => ⟨rfl, _, leaf_holds, rfl⟩, rfl, leaf_holds.shape, by decide +kernel⟩⟩

theorem witness_RdcodeWritesTheCodeImage :
    RdcodeReady (rdcodeV20 32#32) ∧ RdcodeReady { rdcodeV20 32#32 with larg2 := 0xFFFFFFE0#32 } ∧
      31 < 32 ∧ 7 < 8 := by decide +kernel

theorem witness_MissingTreeOrCodesIsRaised : State.reset.treeValid = false ∧ State.reset.codesValid = false := ⟨rfl, rfl⟩

theorem witness_SerializationIsSelfDelimiting :
    (HuffTree.leaf 0x61#8).serialize ++ [0x00#8] = (HuffTree.leaf 0x61#8).serialize ++ [0x00#8] := rfl

theorem saveV3_ready : SaveReady saveV3 classicTree :=
  ⟨rfl, classic_holds, by decide +kernel, by decide +kernel, by decide +kernel, by decide +kernel⟩

theorem witness_SaveWritesThePreorder : SaveReady saveV3 classicTree := saveV3_ready

/-- "abcdef" of V9 with room for five symbols, and with room for none. -/
theorem decodeFull_meets :
    (let s : State := { decodeV9 with larg3 := 5#32 };
      let symbols := [0x61#8, 0x62#8, 0x63#8, 0x64#8, 0x65#8];
      let n := (classicTree.encodeAll (symbols ++ [0x66#8])).length;
      s.treeValid = true ∧ RegionsLegal .decode s ∧ (∀ x ∈ symbols ++ [0x66#8], x ∈ classicTree.symbols) ∧
        symbols.length = s.larg3.toNat ∧ n ≤ s.larg1.toNat ∧ NoBusError s s.larg0 (ceil8 n) .read ∧
        streamBits s s.larg0 n = classicTree.encodeAll (symbols ++ [0x66#8])) ∧
    (let s : State := { decodeV9 with larg3 := 0#32 };
      let n := (classicTree.encodeAll ([] ++ [0x61#8])).length;
      s.treeValid = true ∧ RegionsLegal .decode s ∧ (∀ x ∈ [] ++ [0x61#8], x ∈ classicTree.symbols) ∧
        ([] : List Sym).length = s.larg3.toNat ∧ n ≤ s.larg1.toNat ∧ NoBusError s s.larg0 (ceil8 n) .read ∧
        streamBits s s.larg0 n = classicTree.encodeAll ([] ++ [0x61#8])) := by decide +kernel

theorem witness_OutputsTooLargeAreRefused :
    (let s := rdcodeV20 31#32;
      s.codesValid = true ∧ s.larg2.toNat + 32 ≤ 2 ^ 32 ∧ s.larg3.toNat < 32) ∧
    (let s : State := { saveV3 with larg3 := 16#32 };
      s.treeValid = true ∧ (destRegion .save s).Fits ∧ s.larg3.toNat < 3 * s.arena.nleaves.toNat - 1) ∧
    HoldsTree decodeV9.arena classicTree :=
  ⟨by decide +kernel, by decide +kernel, classic_holds⟩

/-- LOAD of 95_test_vectors.md V3, issued. -/
def loadV3 : State := loadOf savedV3 17#32

theorem witness_LoadRebuildsASerializedTree : LoadReady loadV3 classicTree := by decide +kernel

theorem loadV3_next : nextHas (fun t => decide (t.err = 0#4)) (exec .load loadV3) = true := by decide +kernel

theorem witness_LoadAcceptsOnlySerializedTrees :
    exec .load loadV3 = .next (nextOf (exec .load loadV3)) ∧ (nextOf (exec .load loadV3)).err = 0#4 := by
  have h := loadV3_next
  have hn := eq_next_of_nextHas h
  rw [hn] at h
  exact ⟨hn, of_decide_eq_true h⟩

/-- What the statement asks of a stream before its clauses: the bytes of the nodes `done`, which begin the tree `tr`. -/
abbrev GoesWrongAfter (s : State) (tr : HuffTree) (done rest : List (Option Sym)) : Prop :=
  (sourceRegion .load s).Fits ∧ tr.tokens = done ++ rest ∧ rest ≠ [] ∧ (done.filterMap id).Nodup ∧ done.length ≤ 511 ∧
    (done.flatMap tokenBytes).length ≤ s.larg1.toNat ∧
    regionBytes s s.larg0 (done.flatMap tokenBytes).length = done.flatMap tokenBytes ∧
    NoBusError s s.larg0 (done.flatMap tokenBytes).length .read

/-- A tree whose first `k` nodes are internal. -/
def deepTree : Nat → HuffTree
  | 0 => .leaf 0x00#8
  | k + 1 => .node (deepTree k) (.leaf 0x00#8)

/-- Whether the read of a byte of the source succeeds. -/
abbrev Readable (s : State) (k : Nat) : Prop := s.platform.busError (addrAt s.larg0 k) .read = false

/-- One stream for each clause (95_test_vectors.md V23), and the empty stream. -/
theorem witness_LoadReportsMalformedStreams :
    (let s := loadOf [] 0#32;
      GoesWrongAfter s (.leaf 0x61#8) [] [some 0x61#8] ∧ s.larg1.toNat = 0) ∧
    (let s := loadOf [0x00#8, 0x01#8, 0x61#8] 3#32;
      GoesWrongAfter s (.node (.leaf 0x61#8) (.leaf 0x62#8)) [none, some 0x61#8] [some 0x62#8] ∧ s.larg1.toNat = 3) ∧
    (let s := loadOf [0x00#8, 0x01#8, 0x61#8, 0x02#8] 4#32;
      GoesWrongAfter s (.node (.leaf 0x61#8) (.leaf 0x62#8)) [none, some 0x61#8] [some 0x62#8] ∧ 3 < s.larg1.toNat ∧
        Readable s 3 ∧ 0x01#8 < byteAt s s.larg0 3) ∧
    (let s := loadOf [0x00#8, 0x01#8, 0x61#8, 0x01#8] 4#32;
      GoesWrongAfter s (.node (.leaf 0x61#8) (.leaf 0x62#8)) [none, some 0x61#8] [some 0x62#8] ∧ Readable s 3 ∧
        s.larg1.toNat = 3 + 1 ∧ byteAt s s.larg0 3 = 0x01#8) ∧
    (let s := loadOf [0x00#8, 0x01#8, 0x61#8, 0x01#8, 0x61#8] 5#32;
      GoesWrongAfter s (.node (.leaf 0x61#8) (.leaf 0x62#8)) [none, some 0x61#8] [some 0x62#8] ∧
        3 + 2 ≤ s.larg1.toNat ∧ Readable s 3 ∧ byteAt s s.larg0 3 = 0x01#8 ∧ Readable s (3 + 1) ∧
        some (byteAt s s.larg0 (3 + 1)) ∈ [none, some 0x61#8]) := by
  refine ⟨?_, ?_, ?_, ?_, ?_⟩ <;> decide +kernel

/-- Reads that fail at the first tag, at a later tag and at a symbol. -/
theorem witness_LoadReportsMalformedStreams_ioFailure :
    (let s : State := { loadOf [0x01#8, 0x61#8] 2#32 with platform := failing 0x3000#32 .read };
      GoesWrongAfter s (.leaf 0x61#8) [] [some 0x61#8] ∧ 0 < s.larg1.toNat ∧ ¬ Readable s 0) ∧
    (let s : State := { loadOf [0x00#8, 0x01#8, 0x61#8, 0x01#8] 4#32 with platform := failing 0x3003#32 .read };
      GoesWrongAfter s (.node (.leaf 0x61#8) (.leaf 0x62#8)) [none, some 0x61#8] [some 0x62#8] ∧ 3 < s.larg1.toNat ∧
        ¬ Readable s 3) ∧
    (let s : State := { loadOf [0x00#8, 0x01#8, 0x61#8, 0x01#8, 0x62#8] 5#32 with platform := failing 0x3004#32 .read };
      GoesWrongAfter s (.node (.leaf 0x61#8) (.leaf 0x62#8)) [none, some 0x61#8] [some 0x62#8] ∧
        3 + 2 ≤ s.larg1.toNat ∧ Readable s 3 ∧ byteAt s s.larg0 3 = 0x01#8 ∧ ¬ Readable s (3 + 1)) := by
  refine ⟨?_, ?_, ?_⟩ <;> decide +kernel

/-- 512 bytes of 00: the first 511 nodes are internal. -/
theorem witness_LoadReportsMalformedStreams_tooMany :
    GoesWrongAfter (loadOf [] 512#32) (deepTree 511) (List.replicate 511 none) ((deepTree 511).tokens.drop 511) ∧
      511 < (loadOf [] 512#32).larg1.toNat ∧ (List.replicate 511 (none : Option Sym)).length = 511 := by decide +kernel

theorem witness_PackerLaysOutBitsInOrder :
    7 < 8 * (packBits [true]).length ∧ 8 < 8 * (packBits (List.replicate 9 true)).length := by decide

/-- The capacity of V8, and the exact capacity. -/
theorem witness_EncodeWritesThePackedStream :
    EncodeReady encodeV8 ∧ EncodeReady { encodeV8 with larg3 := 3#32 } := by decide +kernel

/-- The premises of the statement before its clauses, at offset `i`. -/
abbrev EncodesUpTo (s : State) (i : Nat) : Prop :=
  s.codesValid = true ∧ RegionsLegal .encode s ∧ i < s.larg1.toNat ∧ NoBusError s s.larg0 i .read ∧
    (∀ k, k < i → (codeOf s.code (byteAt s s.larg0 k)).len ≠ 0#8) ∧
    (codeBits s.code (regionBytes s s.larg0 i)).length ≤ min (8 * s.larg3.toNat) (2 ^ 32 - 1)

/-- Reads that fail at the first byte and at the third, "abz" of V26, and "abc" with room for 8 bits. -/
theorem witness_EncodeReportsTheFirstBadByte :
    (let s : State := { encodeV8 with platform := failing 0x1000#32 .read };
      EncodesUpTo s 0 ∧ s.platform.busError (addrAt s.larg0 0) .read = true) ∧
    (let s : State := { encodeV8 with platform := failing 0x1002#32 .read };
      EncodesUpTo s 2 ∧ s.platform.busError (addrAt s.larg0 2) .read = true) ∧
    (let s : State := { encodeV8 with larg1 := 3#32, mem := memOf 0x1000 [0x61#8, 0x62#8, 0x7A#8] };
      EncodesUpTo s 2 ∧ Readable s 2 ∧ (codeOf s.code (byteAt s s.larg0 2)).len = 0#8) ∧
    (let s : State := { encodeV8 with larg3 := 1#32 };
      EncodesUpTo s 2 ∧ Readable s 2 ∧ (codeOf s.code (byteAt s s.larg0 2)).len ≠ 0#8 ∧
        min (8 * s.larg3.toNat) (2 ^ 32 - 1) < (codeBits s.code (regionBytes s s.larg0 3)).length) := by
  refine ⟨?_, ?_, ?_, ?_⟩ <;> decide +kernel

/-- "abcdef" of V9, and the empty stream with no room. -/
theorem witness_DecodeWritesTheSymbols :
    DecodeReady decodeV9 classicTree [0x61#8, 0x62#8, 0x63#8, 0x64#8, 0x65#8, 0x66#8] ∧
      DecodeReady { decodeV9 with larg1 := 0#32, larg3 := 0#32 } classicTree [] := by decide +kernel

/-- The premises of the statement before its clauses, in the classic tree. -/
abbrev DecodesUpTo (s : State) (symbols : List Sym) (sym : Sym) (p q : List Bool) : Prop :=
  s.treeValid = true ∧ RegionsLegal .decode s ∧ (∀ x ∈ symbols, x ∈ classicTree.symbols) ∧
    symbols.length ≤ s.larg3.toNat ∧ q ≠ [] ∧ (sym, p ++ q) ∈ classicTree.codes

/-- V10's cut code; and V9's stream with the first read failing, the second, between two codes, and the third, inside
one. -/
theorem witness_DecodeStopsWithinTheStream :
    HoldsTree decodeV10.arena classicTree ∧ HoldsTree decodeV9.arena classicTree ∧
    (DecodesUpTo decodeV10 [] 0x61#8 [true, true, false] [false] ∧ [true, true, false] ≠ [] ∧
      NoBusError decodeV10 decodeV10.larg0 (ceil8 decodeV10.larg1.toNat) .read ∧
      streamBits decodeV10 decodeV10.larg0 decodeV10.larg1.toNat = classicTree.encodeAll [] ++ [true, true, false]) ∧
    (let s : State := { decodeV9 with platform := failing 0x3100#32 .read };
      DecodesUpTo s [] 0x66#8 [] [false] ∧ 8 * 0 < s.larg1.toNat ∧ NoBusError s s.larg0 0 .read ∧ ¬ Readable s 0 ∧
        streamBits s s.larg0 (8 * 0) = classicTree.encodeAll [] ++ []) ∧
    (let s : State := { decodeV9 with platform := failing 0x3101#32 .read };
      DecodesUpTo s [0x61#8, 0x62#8] 0x63#8 [] [true, false, false] ∧ 8 * 1 < s.larg1.toNat ∧
        NoBusError s s.larg0 1 .read ∧ ¬ Readable s 1 ∧
        streamBits s s.larg0 (8 * 1) = classicTree.encodeAll [0x61#8, 0x62#8] ++ []) ∧
    (let s : State := { decodeV9 with platform := failing 0x3102#32 .read };
      DecodesUpTo s [0x61#8, 0x62#8, 0x63#8, 0x64#8] 0x65#8 [true, true] [true] ∧ 8 * 2 < s.larg1.toNat ∧
        NoBusError s s.larg0 2 .read ∧ ¬ Readable s 2 ∧
        streamBits s s.larg0 (8 * 2) = classicTree.encodeAll [0x61#8, 0x62#8, 0x63#8, 0x64#8] ++ [true, true]) :=
  ⟨classic_holds, classic_holds, by decide +kernel, by decide +kernel, by decide +kernel, by decide +kernel⟩

theorem witness_SingleLeafOneBitIsCorrupt :
    decodeCorrupt.treeValid = true ∧ decodeCorrupt.arena.tree = some (.leaf 0x78#8) ∧
      RegionsLegal .decode decodeCorrupt ∧
      NoBusError decodeCorrupt decodeCorrupt.larg0 (ceil8 decodeCorrupt.larg1.toNat) .read ∧
      1 < decodeCorrupt.larg1.toNat ∧ 1 ≤ decodeCorrupt.larg3.toNat ∧
      (∀ j, j < 1 → streamBit decodeCorrupt decodeCorrupt.larg0 j = false) ∧
      streamBit decodeCorrupt decodeCorrupt.larg0 1 = true := by decide +kernel

/-- DECODE of V9's stream where V8's ENCODE left it. -/
def decodeAfterV8 : State :=
  withTree { busyWith 0x21#32 0x2000#32 18#32 0x4000#32 6#32 with mem := (nextOf (exec .encode encodeV8)).mem }

theorem witness_DecodeUndoesEncode :
    (let s := encodeV8;
      let t := nextOf (exec .encode encodeV8);
      let u := decodeAfterV8;
      MemoryLegal s ∧ CodesLegal s ∧ s.codesValid = true ∧ exec .encode s = .next t ∧ t.err = 0#4 ∧
        u.treeValid = true ∧ u.arena = s.arena ∧ u.mem = t.mem ∧ u.larg0 = s.larg2 ∧ u.larg1 = t.result1 ∧
        s.larg1.toNat ≤ u.larg3.toNat ∧ RegionsLegal .decode u ∧ NoBusError u u.larg0 t.result0.toNat .read ∧
        NoBusError u u.larg2 s.larg1.toNat .write) := by
  have h := encodeV8_next
  have hn := eq_next_of_nextHas h
  rw [hn] at h
  simp only [nextHas, decide_eq_true_eq] at h
  obtain ⟨he, h1, h0⟩ := h
  refine ⟨?_, withCodes_legal _, rfl, hn, he, rfl, rfl, rfl, rfl, h1.symm, ?_, ?_, ?_, ?_⟩
  · show Memory.wf encodeV8.mem
    decide +kernel
  · decide
  · decide +kernel
  · show NoBusError decodeAfterV8 0x2000#32 (nextOf (exec .encode encodeV8)).result0.toNat .read
    rw [h0]
    decide +kernel
  · decide +kernel

/-- ENCODE with a region at the end of the address space, and with regions that share one byte. -/
theorem witness_BadRegionsAreRefused :
    (let s : State := { encodeV8 with larg0 := 0xFFFFFFFF#32, larg1 := 2#32 };
      TreeLegal s ∧ CommandReady .encode s ∧ 0 < (sourceRegion .encode s).len ∧
        2 ^ 32 < (sourceRegion .encode s).base.toNat + (sourceRegion .encode s).len) ∧
    (let s : State := { encodeV8 with larg2 := 0xFFFFFFFF#32, larg3 := 2#32 };
      TreeLegal s ∧ CommandReady .encode s ∧ (sourceRegion .encode s).Fits ∧ 0 < (destRegion .encode s).len ∧
        2 ^ 32 < (destRegion .encode s).base.toNat + (destRegion .encode s).len) ∧
    (let s : State := { encodeV8 with larg2 := 0x1005#32 };
      TreeLegal s ∧ CommandReady .encode s ∧ (sourceRegion .encode s).Fits ∧ (destRegion .encode s).Fits ∧
        0 < (sourceRegion .encode s).len ∧ 0 < (destRegion .encode s).len ∧
        (sourceRegion .encode s).base.toNat < (destRegion .encode s).base.toNat + (destRegion .encode s).len ∧
        (destRegion .encode s).base.toNat < (sourceRegion .encode s).base.toNat + (sourceRegion .encode s).len) ∧
    (let s : State := { encodeV8 with larg2 := 0x1006#32 };
      TreeLegal s ∧ CommandReady .encode s ∧ (sourceRegion .encode s).Fits ∧ (destRegion .encode s).Fits ∧
        (sourceRegion .encode s).Apart (destRegion .encode s)) ∧
    (TreeLegal encodeV8 ∧ CommandReady .encode encodeV8 ∧ RegionsLegal .encode encodeV8 ∧
      exec .encode encodeV8 = .next (nextOf (exec .encode encodeV8))) :=
  ⟨⟨fun _ => ⟨classicTree, classic_holds⟩, rfl, by decide +kernel⟩,
    ⟨fun _ => ⟨classicTree, classic_holds⟩, rfl, by decide +kernel⟩,
    ⟨fun _ => ⟨classicTree, classic_holds⟩, rfl, by decide +kernel⟩,
    ⟨fun _ => ⟨classicTree, classic_holds⟩, rfl, by decide +kernel⟩,
    ⟨withCodes_tree_legal _, rfl, by decide +kernel, eq_next_of_nextHas encodeV8_next⟩⟩

/-- A BUILD, a LOAD, a GENCODES and a command that is none of them. -/
theorem witness_TreeValidFollowsBuildAndLoad :
    exec .build buildV1 = .next (nextOf (exec .build buildV1)) ∧
      exec .load loadV3 = .next (nextOf (exec .load loadV3)) ∧
      exec .clrfreq encodeV8 = .next (nextOf (exec .clrfreq encodeV8)) ∧ TreeLegal buildV1 ∧ TreeLegal encodeV8 :=
  ⟨eq_next_of_nextHas buildV1_next, eq_next_of_nextHas loadV3_next, rfl, buildV1_legal, withCodes_tree_legal _⟩

theorem gencodes_next : nextHas (fun t => t.codesValid) (exec .gencodes (withTree State.reset)) = true := by decide +kernel

theorem witness_CodesValidFollowsGencodes :
    exec .gencodes (withTree State.reset) = .next (nextOf (exec .gencodes (withTree State.reset))) ∧
      exec .load loadV3 = .next (nextOf (exec .load loadV3)) ∧
      exec .encode encodeV8 = .next (nextOf (exec .encode encodeV8)) ∧ TreeLegal encodeV8 ∧ CodesLegal encodeV8 :=
  ⟨eq_next_of_nextHas gencodes_next, eq_next_of_nextHas loadV3_next, eq_next_of_nextHas encodeV8_next,
    withCodes_tree_legal _, withCodes_legal _⟩

theorem witness_CommandsWriteOnlyTheirState :
    exec .encode encodeV8 = .next (nextOf (exec .encode encodeV8)) ∧
      exec .load loadV3 = .next (nextOf (exec .load loadV3)) ∧
      exec .gencodes (withTree State.reset) = .next (nextOf (exec .gencodes (withTree State.reset))) :=
  ⟨eq_next_of_nextHas encodeV8_next, eq_next_of_nextHas loadV3_next, eq_next_of_nextHas gencodes_next⟩

theorem witness_CommandsWriteOnlyTheirDestination :
    TreeLegal encodeV8 ∧ exec .encode encodeV8 = .next (nextOf (exec .encode encodeV8)) ∧
      Region.contains ⟨(destRegion .encode encodeV8).base, (destRegion .encode encodeV8).len⟩ 0x2010#32 = false :=
  ⟨fun _ => ⟨classicTree, classic_holds⟩, eq_next_of_nextHas encodeV8_next, by decide +kernel⟩

/-- SAVE of V3 whose write of 0x3005 fails. -/
def saveFailing : State := { saveV3 with platform := failing 0x3005#32 .write }

theorem saveFailing_next :
    nextHas (fun t => decide (t.err = 6#4 ∧ t.errData = 1#32 ∧ t.errPos = 0x3005#32)) (exec .save saveFailing) = true := by
  decide +kernel

theorem saveV3_next : nextHas (fun t => decide (t.err = 0#4)) (exec .save saveV3) = true := by decide +kernel

theorem rdcodeSmall_next : nextHas (fun t => decide (t.err = 10#4)) (exec (.rdcode 0x61#8) (rdcodeV20 31#32)) = true := by
  decide +kernel

/-- What the statement asks of a state for its clause on the first failing write, at byte `k`. -/
abbrev WriteFailsAt (i : Instr) (s : State) (k : Nat) : Prop :=
  NoBusError s (sourceRegion i s).base (sourceRegion i s).len .read ∧ k < (destRegion i s).len ∧
    NoBusError s (destRegion i s).base k .write ∧
    s.platform.busError (addrAt (destRegion i s).base k) .write = true ∧
    nextHas (fun u => decide (u.err = 0#4 ∧ (i = .rdcode 0x61#8 ∨ k < u.result0.toNat)))
      (exec i { s with platform := { s.platform with busErrors := [] } }) = true

/-- The failing write of each command that writes, at the first byte and at the last. -/
theorem witness_ErrorsLeaveMemoryAlone_writes :
    WriteFailsAt .save saveFailing 5 ∧ WriteFailsAt .save { saveFailing with platform := failing 0x3010#32 .write } 16 ∧
      WriteFailsAt (.rdcode 0x61#8) { rdcodeV20 32#32 with platform := failing 0x2000#32 .write } 0 ∧
      WriteFailsAt (.rdcode 0x61#8) { rdcodeV20 32#32 with platform := failing 0x201F#32 .write } 31 ∧
      WriteFailsAt .encode { encodeV8 with platform := failing 0x2002#32 .write } 2 ∧
      WriteFailsAt .decode { decodeV9 with platform := failing 0x4005#32 .write } 5 := by
  refine ⟨?_, ?_, ?_, ?_, ?_, ?_⟩ <;> decide +kernel

/-- The failing write, with addresses on both sides of it, and an error that writes nothing. -/
theorem witness_ErrorsLeaveMemoryAlone :
    (let t := nextOf (exec .save saveFailing);
      TreeLegal saveFailing ∧ exec .save saveFailing = .next t ∧ t.err ≠ 0#4 ∧
        exec .save { saveFailing with platform := { saveFailing.platform with busErrors := [] } } =
          .next (nextOf (exec .save saveV3)) ∧ t.err = 6#4 ∧ t.errData = 1#32 ∧ 0x3004#32 < t.errPos ∧
        t.errPos < 0x3006#32) ∧
    (let s := rdcodeV20 31#32;
      let t := nextOf (exec (.rdcode 0x61#8) s);
      TreeLegal s ∧ exec (.rdcode 0x61#8) s = .next t ∧ t.err ≠ 0#4 ∧
        exec (.rdcode 0x61#8) { s with platform := { s.platform with busErrors := [] } } = .next t ∧ t.err ≠ 6#4) := by
  have h := saveFailing_next
  have hn := eq_next_of_nextHas h
  rw [hn] at h
  simp only [nextHas, decide_eq_true_eq] at h
  obtain ⟨h6, h1, hp⟩ := h
  have k := rdcodeSmall_next
  have kn := eq_next_of_nextHas k
  rw [kn] at k
  simp only [nextHas, decide_eq_true_eq] at k
  refine ⟨⟨fun _ => ⟨classicTree, classic_holds⟩, hn, by rw [h6]; decide, eq_next_of_nextHas saveV3_next, h6, h1, ?_, ?_⟩,
    ⟨fun _ => ⟨classicTree, classic_holds⟩, kn, by rw [k]; decide, kn, by rw [k]; decide⟩⟩
  · rw [hp]; decide
  · rw [hp]; decide

theorem witness_EveryCommandCompletes : TreeLegal buildV1 ∧ (Instr.build = .build → buildV1.freqWritten = true) :=
  ⟨buildV1_legal, fun _ => by decide +kernel⟩

theorem encodeV8_legal : Legal encodeV8 where
  memory := by
    show Memory.wf encodeV8.mem
    decide +kernel
  status := ⟨fun _ => ⟨rfl, rfl, rfl, rfl, rfl, rfl⟩, by decide, fun h => absurd rfl h, fun _ => ⟨rfl, rfl⟩, by decide⟩
  tree := withCodes_tree_legal _
  codes := withCodes_legal _

/-- With no input waiting, a step of a busy state runs its command. -/
theorem step_eq_exec {s : State} {i : Instr} (hin : s.inputs = []) (hb : s.eng = .busy) (hd : decode s.lcmd = .ok i)
    (ht : touchesDevice i s = false) : step s = exec i s := by
  simp [step, takeNext, hin, engineTurn, hb, hd, runCommand, ht]

theorem step_encodeV8_next : step encodeV8 = .next (nextOf (exec .encode encodeV8)) :=
  (step_eq_exec rfl rfl rfl (by decide +kernel)).trans (eq_next_of_nextHas encodeV8_next)

theorem witness_StepKeepsMemoryCanonical :
    MemoryLegal encodeV8 ∧ step encodeV8 = .next (nextOf (exec .encode encodeV8)) :=
  ⟨encodeV8_legal.memory, step_encodeV8_next⟩

theorem witness_StepKeepsStatusConsistent :
    StatusLegal encodeV8 ∧ step encodeV8 = .next (nextOf (exec .encode encodeV8)) :=
  ⟨encodeV8_legal.status, step_encodeV8_next⟩

theorem witness_StepKeepsTheTreeSound :
    (TreeLegal encodeV8 ∧ step encodeV8 = .next (nextOf (exec .encode encodeV8))) ∧
      (TreeLegal buildV1 ∧ step buildV1 = .next (nextOf (exec .build buildV1))) :=
  ⟨⟨encodeV8_legal.tree, step_encodeV8_next⟩,
    ⟨buildV1_legal, (step_eq_exec rfl rfl rfl (by decide +kernel)).trans (eq_next_of_nextHas buildV1_next)⟩⟩

theorem witness_StepKeepsTheCodesCurrent :
    TreeLegal encodeV8 ∧ CodesLegal encodeV8 ∧ step encodeV8 = .next (nextOf (exec .encode encodeV8)) :=
  ⟨encodeV8_legal.tree, encodeV8_legal.codes, step_encodeV8_next⟩

theorem witness_LegalStatesHoldTheirTree : Legal encodeV8 := encodeV8_legal

/-- Six leaves, and one leaf at depth 0. -/
theorem witness_TreeDepthIsBounded :
    HoldsTree classicArena classicTree ∧ HoldsTree (arenaOf [.leaf 0x78#8 1] 0 1) (.leaf 0x78#8) :=
  ⟨classic_holds, leaf_holds⟩

end Sys2Proof.Tests
end

/-! The register block as the host reaches it, and the fields of STATUS (10_state.md R22, R23, R25). -/

namespace Sys2Proof.Machine

/-! ## How an access is selected -/

/-- An aligned 32-bit access inside the block reaches the register at its offset. -/
theorem Platform.select_aligned (p : Platform) {off : Nat} (hoff : off ≤ 0xFF) (h4 : off % 4 = 0) :
    p.select (p.regBase + off) 32 = .register off := by
  unfold Platform.select
  rw [if_neg (by omega), if_pos ⟨rfl, by omega⟩, Nat.add_sub_cancel_left]

/-- Inside the block an access of another width, or at an unaligned offset, is a bad one. -/
theorem Platform.select_misaligned (p : Platform) {off width : Nat} (hoff : off ≤ 0xFF)
    (h : width ≠ 32 ∨ off % 4 ≠ 0) : p.select (p.regBase + off) width = .bad := by
  unfold Platform.select
  rw [if_neg (by omega), if_neg (by omega)]

/-- An aligned 32-bit read answers with the register's value. -/
theorem hostAccess_regRead_aligned (s : State) {off : Nat} (hoff : off ≤ 0xFF) (h4 : off % 4 = 0) :
    hostAccess (.regRead (s.platform.regBase + off) 32) s =
      .next { s.observeRead off with response := .data (s.regRead off) } := by
  simp only [hostAccess, s.platform.select_aligned hoff h4]

/-- An aligned 32-bit write is taken. -/
theorem hostAccess_regWrite_aligned (s : State) (w : Word) {off : Nat} (hoff : off ≤ 0xFF) (h4 : off % 4 = 0) :
    hostAccess (.regWrite (s.platform.regBase + off) 32 w) s = .next { s.regWrite off w with response := .ack } := by
  simp only [hostAccess, s.platform.select_aligned hoff h4]

/-- Only a read of STATUS is an observation. -/
theorem State.observeRead_of_ne (s : State) {off : Nat} (h : off ≠ 0x04) : s.observeRead off = s := by
  unfold State.observeRead
  rw [if_neg fun hc => h hc.1]

/-- The offsets from 0x30 on are reserved and read 0. -/
theorem State.regRead_reserved (s : State) {off : Nat} (h : 0x30 ≤ off) : s.regRead off = 0#32 := by
  unfold State.regRead
  repeat rw [if_neg (by omega)]

/-- The offsets from RESULT0 on are read-only or reserved: a write is ignored. -/
theorem State.regWrite_readOnly (s : State) (w : Word) {off : Nat} (h : 0x1C ≤ off) : s.regWrite off w = s := by
  unfold State.regWrite
  repeat rw [if_neg (by omega)]

/-- Settles O11: each clause is the answer `select` gives, and what the register block does with it. -/
theorem registerAccessRules : Obligations.RegisterAccessRules := by
  unfold Obligations.RegisterAccessRules
  intro s off width w hoff
  refine ⟨fun hbad => ?_, fun h4 => ⟨?_, fun hres => ?_, fun hro => ?_, fun hst => ?_⟩⟩
  · simp only [hostAccess, s.platform.select_misaligned hoff hbad, and_self]
  · exact ⟨s.regRead off, (s.observeRead off).unobserved, hostAccess_regRead_aligned s hoff h4⟩
  · rw [hostAccess_regRead_aligned s hoff h4, s.observeRead_of_ne (by omega), s.regRead_reserved hres]
  · rw [hostAccess_regWrite_aligned s w hoff h4, s.regWrite_readOnly w hro]
  · subst hst
    exact ⟨_, _, hostAccess_regWrite_aligned s w hoff h4⟩

/-! ## STATUS -/

/-- The five lowest bits of STATUS, from bit 0 up. -/
theorem State.statusWord_flags (s : State) :
    s.statusWord.getLsbD 0 = s.busyBit ∧ s.statusWord.getLsbD 1 = s.done ∧ s.statusWord.getLsbD 2 = s.treeValid ∧
      s.statusWord.getLsbD 3 = s.codesValid ∧ s.statusWord.getLsbD 4 = s.cmdLost := by
  unfold State.statusWord
  refine ⟨?_, ?_, ?_, ?_, ?_⟩ <;>
  · repeat rw [BitVec.getLsbD_append]
    simp

/-- Above its five flags STATUS is ERR between two reserved fields. -/
theorem State.statusWord_extractLsb'_high (s : State) {start : Nat} (len : Nat) (h : 5 ≤ start) :
    s.statusWord.extractLsb' start len = (0#20 ++ s.err ++ 0#3).extractLsb' (start - 5) len := by
  unfold State.statusWord
  rw [BitVec.extractLsb'_append_eq_of_le (by omega), BitVec.extractLsb'_append_eq_of_le (by omega),
    BitVec.extractLsb'_append_eq_of_le (by omega), BitVec.extractLsb'_append_eq_of_le (by omega),
    BitVec.extractLsb'_append_eq_of_le (by omega)]
  congr 1

/-- Bits 7:5, 11:8 and 31:12 of STATUS. -/
theorem State.statusWord_fields (s : State) :
    s.statusWord.extractLsb' 5 3 = 0#3 ∧ s.statusWord.extractLsb' 8 4 = s.err ∧
      s.statusWord.extractLsb' 12 20 = 0#20 := by
  refine ⟨?_, ?_, ?_⟩ <;> rw [s.statusWord_extractLsb'_high _ (by decide)]
  · rw [BitVec.extractLsb'_append_eq_of_add_le (by decide), BitVec.extractLsb'_eq_self]
  · rw [BitVec.extractLsb'_append_eq_of_le (by decide), BitVec.extractLsb'_append_eq_of_add_le (by decide),
      BitVec.extractLsb'_eq_self]
  · rw [BitVec.extractLsb'_append_eq_of_le (by decide), BitVec.extractLsb'_append_eq_of_le (by decide),
      BitVec.extractLsb'_eq_self]

/-- Settles O8: the fields of `statusWord`, read through the register block; a written 1 clears its bit. -/
theorem statusFieldsAndWriteOneToClear : Obligations.StatusFieldsAndWriteOneToClear := by
  unfold Obligations.StatusFieldsAndWriteOneToClear
  refine ⟨by decide, fun s w => ?_⟩
  obtain ⟨hbusy, hdone, htree, hcodes, hlost⟩ := s.statusWord_flags
  obtain ⟨hlow, herr, hhigh⟩ := s.statusWord_fields
  refine ⟨hostAccess_regRead_aligned s (by decide) (by decide), hbusy, hdone, htree, hcodes, hlost, hlow, herr,
    hhigh, ?_⟩
  have clear : ∀ b c : Bool, (b && !c) = if c then false else b := by decide
  rw [hostAccess_regWrite_aligned s w (by decide) (by decide)]
  simp only [State.regWrite, State.writeStatus, clear, if_true, Nat.reduceEqDiff, if_false]

end Sys2Proof.Machine

/-! Trees in an arena: the tree at an index as a relation, its bounds, and the code table of a tree
(10_state.md R41, R43, 42_code_generator.md R142). -/

namespace Sys2Proof.Machine

/-! ## The tree at an index -/

/-- `node` holds the tree `t` at index `i`: `treeBelow` as a relation, with no bound on the depth. -/
def TreeAt (node : Vector Node 511) : NodeIdx → HuffTree → Prop
  | i, .leaf sym => ∃ f, node[i] = .leaf sym f
  | i, .node tl tr => ∃ l r f, node[i] = .internal l r f ∧ TreeAt node l tl ∧ TreeAt node r tr

/-- A tree that an arena holds at an index is found by a search deeper than the tree. -/
theorem treeBelow_of_treeAt {node : Vector Node 511} {i : NodeIdx} {t : HuffTree} (h : TreeAt node i t) {fuel : Nat}
    (hd : t.depth < fuel) : treeBelow node fuel i = some t := by
  induction t generalizing i fuel with
  | leaf sym =>
    obtain ⟨fuel, rfl⟩ : ∃ k, fuel = k + 1 := ⟨fuel - 1, by omega⟩
    obtain ⟨f, hf⟩ := h
    simp only [treeBelow, hf]
  | node tl tr ihl ihr =>
    obtain ⟨fuel, rfl⟩ : ∃ k, fuel = k + 1 := ⟨fuel - 1, by omega⟩
    obtain ⟨l, r, f, hf, hl, hr⟩ := h
    simp only [HuffTree.depth] at hd
    simp only [treeBelow, hf, ihl hl (by omega : tl.depth < fuel), ihr hr (by omega : tr.depth < fuel)]

/-- The deepest leaf has fewer internal nodes above it than the tree has leaves (10_state.md R41(f)). -/
theorem HuffTree.depth_lt_symbols_length (t : HuffTree) : t.depth < t.symbols.length := by
  induction t with
  | leaf sym => simp [HuffTree.depth]
  | node l r ihl ihr =>
    have := l.symbols_length_pos
    have := r.symbols_length_pos
    simp only [HuffTree.depth, HuffTree.symbols_node, List.length_append]
    omega

/-- There are 256 symbols, so no more distinct ones (10_state.md R41(e)). -/
theorem symbols_length_le_of_nodup {syms : List Sym} (h : syms.Nodup) : syms.length ≤ 256 := by
  have hinj : (syms.map BitVec.toFin).Nodup := h.map fun _ _ => BitVec.eq_of_toFin_eq
  simpa using hinj.length_le_card

/-- An arena whose root has a tree of distinct symbols, counted by NLEAVES, holds that tree. -/
theorem HoldsTree.of_treeAt {a : Arena} {t : HuffTree} (h : TreeAt a.node a.root t) (hd : t.symbols.Nodup)
    (hc : a.nleaves = BitVec.ofNat 9 t.symbols.length) : HoldsTree a t where
  shape := treeBelow_of_treeAt h <| by
    have := t.depth_lt_symbols_length
    have := symbols_length_le_of_nodup hd
    show t.depth < 511
    omega
  distinct := hd
  count := by
    have := symbols_length_le_of_nodup hd
    rw [hc, BitVec.toNat_ofNat]
    omega

/-- The tree an arena holds is the one reached from its root. -/
theorem HoldsTree.eq_of_tree {a : Arena} {t u : HuffTree} (h : HoldsTree a t) (hu : a.tree = some u) : t = u :=
  Option.some.inj (h.shape.symm.trans hu)

/-- A held tree has 1 to 256 leaves (10_state.md R41(e)). -/
theorem HoldsTree.nleaves_bounds {a : Arena} {t : HuffTree} (h : HoldsTree a t) :
    1 ≤ a.nleaves.toNat ∧ a.nleaves.toNat ≤ 256 := by
  rw [h.count]
  exact ⟨t.symbols_length_pos, symbols_length_le_of_nodup h.distinct⟩

/-! ## Codes and the code table -/

/-- A leaf's path goes on from its node's, by at most the depth of the tree. -/
theorem HuffTree.length_of_mem_leafPaths {t : HuffTree} {p q : List Bool} {sym : Sym} (h : (sym, q) ∈ t.leafPaths p) :
    p.length ≤ q.length ∧ q.length ≤ p.length + t.depth := by
  induction t generalizing p with
  | leaf x =>
    obtain ⟨-, rfl⟩ : sym = x ∧ q = p := by simpa [HuffTree.leafPaths] using h
    simp [HuffTree.depth]
  | node l r ihl ihr =>
    simp only [HuffTree.depth]
    rcases List.mem_append.1 h with h | h
    · have := ihl h
      simp only [List.length_append, List.length_singleton] at this
      omega
    · have := ihr h
      simp only [List.length_append, List.length_singleton] at this
      omega

/-- In a tree of distinct symbols every code has 1 to 255 bits (10_state.md R43). -/
theorem HuffTree.length_of_mem_codes {t : HuffTree} (hd : t.symbols.Nodup) {sym : Sym} {p : List Bool}
    (h : (sym, p) ∈ t.codes) : 1 ≤ p.length ∧ p.length ≤ 255 := by
  cases t with
  | leaf x =>
    obtain ⟨-, rfl⟩ : sym = x ∧ p = [false] := by simpa [HuffTree.codes] using h
    decide
  | node l r =>
    have hdepth := (HuffTree.node l r).depth_lt_symbols_length
    have hsyms := symbols_length_le_of_nodup hd
    have hup := (HuffTree.length_of_mem_leafPaths h).2
    simp only [List.length_nil] at hup
    refine ⟨?_, by omega⟩
    rcases List.mem_append.1 h with h | h <;> simpa using (HuffTree.length_of_mem_leafPaths h).1

/-- Recording codes leaves every other symbol's entry alone. -/
theorem codeOf_recordCodes_of_not_mem {cs : List (Sym × List Bool)} {table : Vector CodeEntry 256} {sym : Sym}
    (h : sym ∉ cs.map Prod.fst) : codeOf (recordCodes cs table) sym = codeOf table sym := by
  induction cs generalizing table with
  | nil => rfl
  | cons c cs ih =>
    obtain ⟨x, p⟩ := c
    obtain ⟨hx, hcs⟩ : sym ≠ x ∧ sym ∉ cs.map Prod.fst := by simpa using h
    have hne : x.toNat ≠ sym.toNat := fun e => hx (BitVec.eq_of_toNat_eq e.symm)
    rw [recordCodes, ih hcs, codeOf, codeOf, Vector.getElem_set_ne _ _ hne]

/-- Recording the codes of distinct symbols gives each its own entry. -/
theorem codeOf_recordCodes_of_mem {cs : List (Sym × List Bool)} {table : Vector CodeEntry 256} {sym : Sym}
    {p : List Bool} (hd : (cs.map Prod.fst).Nodup) (h : (sym, p) ∈ cs) :
    codeOf (recordCodes cs table) sym = CodeEntry.ofPath p := by
  induction cs generalizing table with
  | nil => cases h
  | cons c cs ih =>
    obtain ⟨hc, hcs⟩ := List.nodup_cons.1 hd
    rcases List.mem_cons.1 h with rfl | h
    · rw [recordCodes, codeOf_recordCodes_of_not_mem hc, codeOf, Vector.getElem_set_self]
    · exact ih hcs h

/-- In the code table of a tree of distinct symbols a leaf's entry is its code (42_code_generator.md R142). -/
theorem codeOf_codeTable {t : HuffTree} (hd : t.symbols.Nodup) {sym : Sym} {p : List Bool} (h : (sym, p) ∈ t.codes) :
    codeOf (codeTable t) sym = CodeEntry.ofPath p :=
  codeOf_recordCodes_of_mem (t.codes_symbols ▸ hd) h

/-- An entry made of a path of at most 255 bits has its length. -/
theorem CodeEntry.ofPath_len_toNat {p : List Bool} (h : p.length ≤ 255) :
    (CodeEntry.ofPath p).len.toNat = p.length := by
  simp only [CodeEntry.ofPath, BitVec.toNat_ofNat]
  omega

/-- Some symbol of a tree has a code of at least one bit. -/
theorem exists_one_le_codeTable_len {t : HuffTree} (hd : t.symbols.Nodup) :
    ∃ sym, 1 ≤ (codeOf (codeTable t) sym).len.toNat := by
  have hne : t.codes ≠ [] := fun h => by
    have := t.symbols_length_pos
    rw [← t.codes_symbols, h] at this
    exact absurd this (by decide)
  obtain ⟨⟨sym, p⟩, hmem⟩ := List.exists_mem_of_ne_nil _ hne
  obtain ⟨hlo, hhi⟩ := HuffTree.length_of_mem_codes hd hmem
  exact ⟨sym, by rwa [codeOf_codeTable hd hmem, CodeEntry.ofPath_len_toNat hhi]⟩

/-! ## MAXLEN -/

/-- A number is at most the running maximum of a list exactly when it is at most the start or some entry. -/
theorem le_foldl_max_iff {α : Type} (f : α → Nat) (l : List α) (m k : Nat) :
    k ≤ l.foldl (fun acc e => max acc (f e)) m ↔ k ≤ m ∨ ∃ e ∈ l, k ≤ f e := by
  induction l generalizing m with
  | nil => simp
  | cons e l ih => simp [ih, or_assoc]

/-- The entries of a code table are its symbols' entries. -/
theorem mem_iff_codeOf {code : Vector CodeEntry 256} {e : CodeEntry} :
    e ∈ code ↔ ∃ sym, codeOf code sym = e := by
  rw [Vector.mem_iff_getElem]
  constructor
  · rintro ⟨i, hi, rfl⟩
    exact ⟨BitVec.ofNat 8 i, by simp [codeOf, Nat.mod_eq_of_lt hi]⟩
  · rintro ⟨sym, rfl⟩
    exact ⟨sym.toNat, sym.isLt, rfl⟩

/-- A number is at most MAXLEN exactly when it is 0 or at most some code's length (10_state.md R36). -/
theorem le_maxLen_iff (code : Vector CodeEntry 256) (k : Nat) :
    k ≤ (maxLen code).toNat ↔ k = 0 ∨ ∃ sym, k ≤ (codeOf code sym).len.toNat := by
  have hbound : code.toList.foldl (fun m e => max m e.len.toNat) 0 < 256 := by
    by_contra hge
    rcases (le_foldl_max_iff (fun e : CodeEntry => e.len.toNat) _ 0 256).1 (not_lt.1 hge) with h | ⟨e, -, h⟩
    · omega
    · exact absurd e.len.isLt (not_lt.2 h)
  rw [maxLen, BitVec.toNat_ofNat, Nat.mod_eq_of_lt hbound, le_foldl_max_iff]
  simp [mem_iff_codeOf]

/-- No code is longer than MAXLEN. -/
theorem codeOf_len_le_maxLen (code : Vector CodeEntry 256) (sym : Sym) : (codeOf code sym).len ≤ maxLen code :=
  BitVec.le_def.2 ((le_maxLen_iff code _).2 (.inr ⟨sym, le_rfl⟩))

/-- Some code is as long as MAXLEN. -/
theorem exists_codeOf_len_eq_maxLen (code : Vector CodeEntry 256) : ∃ sym, (codeOf code sym).len = maxLen code := by
  have hge : ∃ sym, (maxLen code).toNat ≤ (codeOf code sym).len.toNat := by
    rcases (le_maxLen_iff code _).1 le_rfl with h | h
    · exact ⟨0, by omega⟩
    · exact h
  obtain ⟨sym, h⟩ := hge
  exact ⟨sym, BitVec.eq_of_toNat_eq (Nat.le_antisymm (codeOf_len_le_maxLen code sym) h)⟩

/-- The code table of a tree has a code of at least one bit, so MAXLEN is at least 1. -/
theorem one_le_maxLen_codeTable {t : HuffTree} (hd : t.symbols.Nodup) : 1 ≤ (maxLen (codeTable t)).toNat :=
  (le_maxLen_iff _ 1).2 (.inr (exists_one_le_codeTable_len hd))

/-! ## INFO -/

/-- INFO is NLEAVES_OUT below MAXLEN, each with the bits above it reserved (10_state.md R36). -/
theorem State.infoWord_fields (s : State) :
    s.infoWord.extractLsb' 0 9 = (if s.treeValid then s.arena.nleaves else 0#9) ∧
      s.infoWord.extractLsb' 9 7 = 0#7 ∧
      s.infoWord.extractLsb' 16 8 = (if s.codesValid then maxLen s.code else 0#8) ∧
      s.infoWord.extractLsb' 24 8 = 0#8 := by
  unfold State.infoWord
  refine ⟨?_, ?_, ?_, ?_⟩
  · rw [BitVec.extractLsb'_append_eq_of_add_le (by decide), BitVec.extractLsb'_eq_self]
  · rw [BitVec.extractLsb'_append_eq_of_le (by decide), BitVec.extractLsb'_append_eq_of_add_le (by decide),
      BitVec.extractLsb'_eq_self]
  · rw [BitVec.extractLsb'_append_eq_of_le (by decide), BitVec.extractLsb'_append_eq_of_le (by decide),
      BitVec.extractLsb'_append_eq_of_add_le (by decide), BitVec.extractLsb'_eq_self]
  · rw [BitVec.extractLsb'_append_eq_of_le (by decide), BitVec.extractLsb'_append_eq_of_le (by decide),
      BitVec.extractLsb'_append_eq_of_le (by decide), BitVec.extractLsb'_eq_self]

/-- While CODES_VALID = 1 in a state that meets its invariant, some code has a bit. -/
theorem CodesLegal.one_le_maxLen {s : State} (h : CodesLegal s) (hv : s.codesValid = true) :
    1 ≤ (maxLen s.code).toNat := by
  obtain ⟨-, t, ht, hcode⟩ := h hv
  exact hcode ▸ one_le_maxLen_codeTable ht.distinct

/-- Settles O9: the fields of `infoWord`, with the range of NLEAVES of a held tree and the bounds of `maxLen`. -/
theorem infoShowsLeavesAndLongestCode : Obligations.InfoShowsLeavesAndLongestCode := by
  unfold Obligations.InfoShowsLeavesAndLongestCode
  refine ⟨by decide, fun s => ?_⟩
  obtain ⟨hleaves, hlow, hlen, hhigh⟩ := s.infoWord_fields
  rw [hleaves, hlen]
  refine ⟨?_, fun ht hv => ?_, fun hc hv => ?_, rfl, hlow, hhigh, fun hv => by simp [hv], fun hv => ?_⟩
  · exact hostAccess_regRead_aligned s (by decide) (by decide)
  · obtain ⟨t, hheld⟩ := ht hv
    simpa [hv] using hheld.nleaves_bounds
  · simpa [hv] using hc.one_le_maxLen hv
  · simpa [hv] using ⟨codeOf_len_le_maxLen s.code, exists_codeOf_len_eq_maxLen s.code⟩

end Sys2Proof.Machine

/-! How each command ends, and what the commands that neither build a tree nor make codes leave alone
(10_state.md R47). -/

namespace Sys2Proof.Machine

/-! ## What a completion leaves alone -/

theorem State.raiseError_keepsTables (s : State) (e : CmdError) : KeepsTables s (s.raiseError e) :=
  ⟨⟨rfl, rfl⟩, ⟨rfl, rfl⟩, rfl, rfl⟩

/-- A write of a destination region touches no internal memory and no valid bit. -/
theorem writeAndComplete_keepsTables (base : Addr) (bytes : List Byte) (r0 r1 : Word) (s : State) :
    KeepsTables s (writeAndComplete base bytes r0 r1 s) := by
  rcases writeAndComplete_cases base bytes r0 r1 s with ⟨t, h, e⟩ | ⟨t, _, h, e⟩ <;>
  · rw [e, writeBytes_changes h]
    exact ⟨⟨rfl, rfl⟩, ⟨rfl, rfl⟩, rfl, rfl⟩

/-- No error has the code 0 (60_exceptions.md R230). -/
theorem ErrorKind.code_ne_zero (k : ErrorKind) : k.code ≠ 0#4 := by
  cases k <;> decide

theorem execRdcode_keepsTables {s t : State} {sym : Sym} (h : execRdcode sym s = .next t) : KeepsTables s t := by
  unfold execRdcode at h
  split at h <;> cases h
  · exact s.raiseError_keepsTables _
  · exact writeAndComplete_keepsTables ..

theorem execEncode_keepsTables {s t : State} (h : execEncode s = .next t) : KeepsTables s t := by
  unfold execEncode at h
  split at h
  · cases h; exact s.raiseError_keepsTables _
  · split at h
    · cases h; exact s.raiseError_keepsTables _
    · split at h <;> cases h
      · exact s.raiseError_keepsTables _
      · exact writeAndComplete_keepsTables ..

theorem execDecode_keepsTables {s t : State} (h : execDecode s = .next t) : KeepsTables s t := by
  unfold execDecode at h
  split at h
  · cases h; exact s.raiseError_keepsTables _
  · split at h
    · cases h
    · split at h <;> cases h
      · exact s.raiseError_keepsTables _
      · exact writeAndComplete_keepsTables ..

theorem execSave_keepsTables {s t : State} (h : execSave s = .next t) : KeepsTables s t := by
  unfold execSave at h
  split at h
  · cases h; exact s.raiseError_keepsTables _
  · split at h <;> cases h
    exact writeAndComplete_keepsTables ..

theorem execLdfreq_keepsTree_keepsCodes {s t : State} (h : execLdfreq s = .next t) :
    KeepsTree s t ∧ KeepsCodes s t := by
  unfold execLdfreq at h
  split at h
  · cases h; exact (s.raiseError_keepsTables _).2
  · split at h <;> cases h
    · exact (s.raiseError_keepsTables _).2
    · simp [KeepsTree, KeepsCodes]

/-! ## The three commands that write a valid bit -/

/-- GENCODES raises an error or installs the code table of the tree in the arena. -/
theorem execGencodes_cases {s t : State} (h : execGencodes s = .next t) :
    (∃ e, t = s.raiseError e) ∨
      ∃ tr r0 r1, s.treeValid = true ∧ s.arena.tree = some tr ∧ t = (s.installCodes (codeTable tr)).complete r0 r1 := by
  unfold execGencodes at h
  split at h
  · cases h; exact .inl ⟨_, rfl⟩
  · rename_i hchecks
    split at h <;> cases h
    rename_i tr htr
    have hv : s.treeValid = true :=
      checkTree_eq_ok_iff.1 (firstError_eq_ok_iff.1 hchecks _ (List.mem_singleton_self _))
    exact .inr ⟨tr, _, _, hv, htr, rfl⟩

/-- BUILD drops the tree with an error or installs the arena built of a non-empty alphabet. -/
theorem execBuild_cases {s t : State} (h : execBuild s = .next t) :
    (∃ e, t = s.dropTree.raiseError e) ∨
      ∃ r0 r1, alphabet s.freq ≠ [] ∧ t = (s.installTree (builtArena s.freq s.freeNodes)).complete r0 r1 := by
  unfold execBuild at h
  split at h
  · dsimp only at h
    split at h <;> cases h
    · exact .inl ⟨_, rfl⟩
    · rename_i hn
      exact .inr ⟨_, _, fun he => hn (by rw [he]; rfl), rfl⟩
  · cases h

/-- LOAD drops the tree with an error or installs the arena it parsed. -/
theorem execLoad_cases {s t : State} (h : execLoad s = .next t) :
    (∃ e, t = s.dropTree.raiseError e) ∨
      ∃ ld r0 r1, parseTree s = .ok ld ∧
        t = (s.installTree ⟨ld.node, 0, BitVec.ofNat 9 ld.leaves⟩).complete r0 r1 := by
  unfold execLoad at h
  split at h
  · cases h; exact .inl ⟨_, rfl⟩
  · split at h <;> cases h
    · exact .inl ⟨_, rfl⟩
    · rename_i ld hld
      exact .inr ⟨ld, _, _, hld, rfl⟩

/-! ## Every other command -/

/-- Only BUILD, LOAD and GENCODES write the tree, the codes or their valid bits. -/
theorem exec_keepsTree_keepsCodes {i : Instr} {s t : State} (h : exec i s = .next t) (hg : i ≠ .gencodes)
    (hb : i ≠ .build) (hl : i ≠ .load) : KeepsTree s t ∧ KeepsCodes s t := by
  cases i with
  | clrfreq => cases h; exact ⟨⟨rfl, rfl⟩, rfl, rfl⟩
  | setfreq sym => cases h; exact ⟨⟨rfl, rfl⟩, rfl, rfl⟩
  | ldfreq => exact execLdfreq_keepsTree_keepsCodes h
  | build => exact absurd rfl hb
  | gencodes => exact absurd rfl hg
  | rdcode sym => exact (execRdcode_keepsTables h).2
  | encode => exact (execEncode_keepsTables h).2
  | decode => exact (execDecode_keepsTables h).2
  | save => exact (execSave_keepsTables h).2
  | load => exact absurd rfl hl

/-- Only BUILD and LOAD write the tree or TREE_VALID. -/
theorem exec_keepsTree {i : Instr} {s t : State} (h : exec i s = .next t) (hb : i ≠ .build) (hl : i ≠ .load) :
    KeepsTree s t := by
  by_cases hg : i = .gencodes
  · subst hg
    rcases execGencodes_cases h with ⟨e, rfl⟩ | ⟨tr, r0, r1, -, -, rfl⟩ <;> exact ⟨rfl, rfl⟩
  · exact (exec_keepsTree_keepsCodes h hg hb hl).1

/-! ## The invariants of the tree and of the codes -/

/-- The tree invariant reads the arena and TREE_VALID alone. -/
theorem TreeLegal.of_keepsTree {s t : State} (h : TreeLegal s) (hk : KeepsTree s t) : TreeLegal t := by
  obtain ⟨harena, hvalid⟩ := hk
  unfold TreeLegal
  rw [harena, hvalid]
  exact h

/-- The code invariant reads the arena, CODE and the two valid bits alone. -/
theorem CodesLegal.of_keeps {s t : State} (h : CodesLegal s) (hk : KeepsTree s t ∧ KeepsCodes s t) : CodesLegal t := by
  obtain ⟨⟨harena, htree⟩, hcode, hcodes⟩ := hk
  unfold CodesLegal
  rw [harena, htree, hcode, hcodes]
  exact h

/-- After BUILD or LOAD, CODES_VALID = 0. -/
theorem codesValid_of_exec_build_or_load {i : Instr} {s t : State} (h : exec i s = .next t)
    (hi : i = .build ∨ i = .load) : t.codesValid = false := by
  rcases hi with rfl | rfl
  · rcases execBuild_cases h with ⟨e, rfl⟩ | ⟨r0, r1, -, rfl⟩ <;> rfl
  · rcases execLoad_cases h with ⟨e, rfl⟩ | ⟨ld, r0, r1, -, rfl⟩ <;> rfl

/-- After BUILD or LOAD, TREE_VALID says whether it succeeded. -/
theorem treeValid_of_exec_build_or_load {i : Instr} {s t : State} (h : exec i s = .next t)
    (hi : i = .build ∨ i = .load) : t.treeValid = decide (t.err = 0#4) := by
  have failed : ∀ e : CmdError, (s.dropTree.raiseError e).treeValid = decide ((s.dropTree.raiseError e).err = 0#4) :=
    fun e => (decide_eq_false e.kind.code_ne_zero).symm
  rcases hi with rfl | rfl
  · rcases execBuild_cases h with ⟨e, rfl⟩ | ⟨r0, r1, -, rfl⟩
    · exact failed e
    · rfl
  · rcases execLoad_cases h with ⟨e, rfl⟩ | ⟨ld, r0, r1, -, rfl⟩
    · exact failed e
    · rfl

/-- After GENCODES, CODES_VALID is set on success and as before on an error. -/
theorem codesValid_of_exec_gencodes {s t : State} (h : exec .gencodes s = .next t) :
    t.codesValid = if t.err = 0#4 then true else s.codesValid := by
  rcases execGencodes_cases h with ⟨e, rfl⟩ | ⟨tr, r0, r1, -, -, rfl⟩
  · exact (if_neg e.kind.code_ne_zero).symm
  · rfl

/-- Every command keeps the code invariant: GENCODES makes the table of the current tree, BUILD and LOAD drop it. -/
theorem exec_keeps_codesLegal {i : Instr} {s t : State} (h : exec i s = .next t) (ht : TreeLegal s)
    (hc : CodesLegal s) : CodesLegal t := by
  by_cases hbl : i = .build ∨ i = .load
  · exact fun hv => absurd ((codesValid_of_exec_build_or_load h hbl).symm.trans hv) (by decide)
  · obtain ⟨hb, hl⟩ := not_or.1 hbl
    by_cases hg : i = .gencodes
    · subst hg
      rcases execGencodes_cases h with ⟨e, rfl⟩ | ⟨tr, r0, r1, hv, htr, rfl⟩
      · exact hc.of_keeps (s.raiseError_keepsTables e).2
      · obtain ⟨u, hu⟩ := ht hv
        obtain rfl := hu.eq_of_tree htr
        exact fun _ => ⟨hv, u, hu, rfl⟩
    · exact hc.of_keeps (exec_keepsTree_keepsCodes h hg hb hl)

/-- Settles O49: the codes' valid bit by command, with `exec_keeps_codesLegal` for its meaning. -/
theorem codesValidFollowsGencodes : Obligations.CodesValidFollowsGencodes := by
  unfold Obligations.CodesValidFollowsGencodes
  intro i s t h
  refine ⟨fun hi => ?_, codesValid_of_exec_build_or_load h, fun hg hb hl => ?_, exec_keeps_codesLegal h, rfl⟩
  · subst hi
    exact codesValid_of_exec_gencodes h
  · exact (exec_keepsTree_keepsCodes h hg hb hl).2.2

end Sys2Proof.Machine

/-! BUILD leaves a tree in the arena: the merges keep a forest over the alphabet (41_tree_builder.md R121 to R123). -/

namespace Sys2Proof.Machine

/-! ## The alphabet and its leaves -/

theorem alphabet_nodup (freq : Vector Word 256) : (alphabet freq).Nodup := by
  refine List.Nodup.filter _ (List.Nodup.map_on (fun x hx y hy h => ?_) List.nodup_range)
  have hx : x < 256 := List.mem_range.1 hx
  have hy : y < 256 := List.mem_range.1 hy
  have := congrArg BitVec.toNat h
  simp only [BitVec.toNat_ofNat] at this
  omega

theorem alphabet_length_le (freq : Vector Word 256) : (alphabet freq).length ≤ 256 :=
  symbols_length_le_of_nodup (alphabet_nodup freq)

/-- Placing leaves from index `n` on leaves the entries below `n` alone. -/
theorem placeLeaves_getElem_of_lt (freq : Vector Word 256) (syms : List Sym) {n : Nat} (node : Vector Node 511)
    {k : Nat} (hk : k < 511) (hlt : k < n) : (placeLeaves freq syms n node)[k] = node[k] := by
  induction syms generalizing n node with
  | nil => rfl
  | cons sym rest ih => rw [placeLeaves, ih _ (by omega), Vector.getElem_setIfInBounds_ne hk (by omega)]

/-- Placing leaves from index `n` on puts the symbol of position `k` at index `n + k`, with its frequency. -/
theorem placeLeaves_getElem_add (freq : Vector Word 256) (syms : List Sym) (n : Nat) (node : Vector Node 511) {k : Nat}
    (hk : k < syms.length) (hn : n + k < 511) :
    (placeLeaves freq syms n node)[n + k] = .leaf syms[k] ((freqOf freq syms[k]).setWidth 40) := by
  induction syms generalizing n node k with
  | nil => exact absurd hk (Nat.not_lt_zero _)
  | cons sym rest ih =>
    rw [placeLeaves]
    cases k with
    | zero =>
      simp only [Nat.add_zero, List.getElem_cons_zero]
      rw [placeLeaves_getElem_of_lt _ _ _ _ (Nat.lt_succ_self n), Vector.getElem_setIfInBounds_self]
    | succ k =>
      have := ih (n + 1) (node.setIfInBounds n (.leaf sym ((freqOf freq sym).setWidth 40))) (k := k)
        (by simpa using hk) (by omega)
      simpa only [Nat.add_assoc, Nat.add_comm 1 k, List.getElem_cons_succ] using this

/-! ## Nodes with children below them -/

/-- Every internal node below index `n` has children of lower index (41_tree_builder.md R124). -/
def ChildrenBelow (node : Vector Node 511) (n : Nat) : Prop :=
  ∀ (i l r : NodeIdx) (f : NodeFreq), i.val < n → node[i] = .internal l r f → l.val < i.val ∧ r.val < i.val

/-- A tree below index `n` is still there in an arena with the same entries below `n`. -/
theorem TreeAt.congr_below {node node' : Vector Node 511} {n : Nat} (hc : ChildrenBelow node n)
    (hsame : ∀ i : NodeIdx, i.val < n → node'[i] = node[i]) {i : NodeIdx} {t : HuffTree} (hi : i.val < n)
    (h : TreeAt node i t) : TreeAt node' i t := by
  induction t generalizing i with
  | leaf sym =>
    obtain ⟨f, hf⟩ := h
    exact ⟨f, (hsame i hi).trans hf⟩
  | node tl tr ihl ihr =>
    obtain ⟨l, r, f, hf, hl, hr⟩ := h
    obtain ⟨hli, hri⟩ := hc i l r f hi hf
    exact ⟨l, r, f, (hsame i hi).trans hf, ihl (by omega) hl, ihr (by omega) hr⟩

/-- Writing the next index keeps a tree below it. -/
theorem TreeAt.setIfInBounds {node : Vector Node 511} {n : Nat} (hc : ChildrenBelow node n) {i : NodeIdx} {t : HuffTree}
    (hi : i.val < n) (h : TreeAt node i t) (v : Node) : TreeAt (node.setIfInBounds n v) i t :=
  h.congr_below hc (fun j hj => Vector.getElem_setIfInBounds_ne j.isLt (by omega)) hi

/-- Writing an internal node over two trees below it gives their common tree. -/
theorem TreeAt.setIfInBounds_self {node : Vector Node 511} {n : Nat} (hc : ChildrenBelow node n) {k x y : NodeIdx}
    {tx ty : HuffTree} (hk : k.val = n) (hx : x.val < n) (hy : y.val < n) (htx : TreeAt node x tx)
    (hty : TreeAt node y ty) (f : NodeFreq) :
    TreeAt (node.setIfInBounds n (.internal x y f)) k (.node tx ty) := by
  subst hk
  exact ⟨x, y, f, Vector.getElem_setIfInBounds_self k.isLt, htx.setIfInBounds hc hx _, hty.setIfInBounds hc hy _⟩

/-- The next index may hold the parent of two nodes below it. -/
theorem ChildrenBelow.setIfInBounds {node : Vector Node 511} {n : Nat} (hc : ChildrenBelow node n) {x y : NodeIdx}
    (hx : x.val < n) (hy : y.val < n) (f : NodeFreq) :
    ChildrenBelow (node.setIfInBounds n (.internal x y f)) (n + 1) := by
  intro i l r g hi hg
  change (node.setIfInBounds n (.internal x y f))[i.val] = _ at hg
  rw [Vector.getElem_setIfInBounds] at hg
  split at hg
  · cases hg
    omega
  · exact hc i l r g (by omega) hg

/-! ## The forest of a builder -/

/-- The builder's pool is a forest: each index in it holds its tree, and the trees' leaves are the symbols `syms`. -/
structure Builder.Forest (b : Builder) (treeOf : NodeIdx → HuffTree) (syms : List Sym) : Prop where
  below : ChildrenBelow b.node b.next
  pooled : ∀ i ∈ b.pool, i.val < b.next ∧ TreeAt b.node i (treeOf i)
  symbols : (b.pool.flatMap fun i => (treeOf i).symbols).Perm syms
  count : b.next + b.pool.length = 2 * syms.length

/-- Before the first merge the forest is one leaf for each symbol of the alphabet. -/
theorem builderStart_forest (freq : Vector Word 256) (node : Vector Node 511) :
    (builderStart freq node).Forest (fun i => .leaf ((alphabet freq).getD i.val 0#8)) (alphabet freq) := by
  have hlen := alphabet_length_le freq
  have leafAt : ∀ i : NodeIdx, (hi : i.val < (alphabet freq).length) →
      (builderStart freq node).node[i] =
        .leaf (alphabet freq)[i.val] ((freqOf freq (alphabet freq)[i.val]).setWidth 40) := by
    intro i hi
    have := placeLeaves_getElem_add freq (alphabet freq) 0 node hi (by omega)
    simp only [Nat.zero_add] at this
    exact this
  refine ⟨fun i l r f hi hf => ?_, fun i hi => ?_, ?_, ?_⟩
  · rw [leafAt i hi] at hf
    cases hf
  · obtain ⟨k, hk, rfl⟩ := List.mem_map.1 hi
    have hk := List.mem_range.1 hk
    have hval : (Fin.ofNat 511 k).val = k := Nat.mod_eq_of_lt (by omega)
    have hlt : (Fin.ofNat 511 k).val < (alphabet freq).length := hval.symm ▸ hk
    exact ⟨hlt, _, by rw [leafAt _ hlt, List.getD_eq_getElem _ _ hlt]⟩
  · refine List.Perm.of_eq ?_
    calc ((List.range (alphabet freq).length).map (Fin.ofNat 511)).flatMap
          (fun i => [(alphabet freq).getD i.val 0#8])
        = (List.range (alphabet freq).length).map (fun k => (alphabet freq).getD (k % 511) 0#8) := by
          rw [← List.map_eq_flatMap, List.map_map]
          rfl
      _ = alphabet freq := List.ext_getElem (by simp) fun k hk hk' => by
          simp [Nat.mod_eq_of_lt (show k < 511 by omega), hk']
  · simp [builderStart]
    omega

/-- Some node of a non-empty pool has the least key. -/
theorem exists_leastKey (node : Vector Node 511) {pool : List NodeIdx} (h : pool ≠ []) :
    ∃ x ∈ pool, leastKey node pool = some x := by
  induction pool with
  | nil => exact absurd rfl h
  | cons i rest ih =>
    cases hrest : leastKey node rest with
    | none => exact ⟨i, by simp, by rw [leastKey, hrest]⟩
    | some j =>
      have hj : j ∈ rest := by
        obtain ⟨x, hx, hj⟩ := ih fun he => by simp [he, leastKey] at hrest
        exact Option.some.inj (hj.symm.trans hrest) ▸ hx
      by_cases hk : keyLess node j i = true
      · exact ⟨j, List.mem_cons_of_mem _ hj, by simp only [leastKey, hrest, hk, if_true]⟩
      · exact ⟨i, by simp, by simp only [leastKey, hrest, hk]; rfl⟩

/-- A merge of at least two nodes takes two of them from the pool and puts their parent in it, at the next index. -/
theorem Builder.merge_eq {b : Builder} (h : 2 ≤ b.pool.length) :
    ∃ x y rest, b.pool.Perm (x :: y :: rest) ∧ b.merge =
      ⟨b.node.setIfInBounds b.next (.internal x y (b.node[x].freq + b.node[y].freq)), rest ++ [Fin.ofNat 511 b.next],
        b.next + 1⟩ := by
  obtain ⟨x, hx, hleast⟩ := exists_leastKey b.node (pool := b.pool) (by rintro he; simp [he] at h)
  have hpos : 0 < (b.pool.erase x).length := by
    rw [List.length_erase_of_mem hx]
    omega
  obtain ⟨y, hy, hnext⟩ := exists_leastKey b.node (List.ne_nil_of_length_pos hpos)
  refine ⟨x, y, (b.pool.erase x).erase y, ?_, by simp only [Builder.merge, hleast, hnext]⟩
  exact (List.perm_cons_erase hx).trans ((List.perm_cons_erase hy).cons x)

/-- The trees of a forest once `x` and `y` have become the children of `k`. -/
def mergedTrees (treeOf : NodeIdx → HuffTree) (k x y : NodeIdx) : NodeIdx → HuffTree :=
  Function.update treeOf k (.node (treeOf x) (treeOf y))

/-- A merge keeps a forest of the same symbols, with one tree fewer. -/
theorem Builder.Forest.merge {b : Builder} {treeOf : NodeIdx → HuffTree} {syms : List Sym} (hf : b.Forest treeOf syms)
    (hsyms : syms.length ≤ 256) (hpool : 2 ≤ b.pool.length) :
    (∃ treeOf', b.merge.Forest treeOf' syms) ∧ b.merge.pool.length + 1 = b.pool.length := by
  obtain ⟨hbelow, hpooled, hsymbols, hcount⟩ := hf
  obtain ⟨x, y, rest, hperm, hmerge⟩ := Builder.merge_eq hpool
  have hlen := hperm.length_eq
  simp only [List.length_cons] at hlen
  have hnext : b.next < 511 := by omega
  obtain ⟨k, hk, hkval⟩ : ∃ k, Fin.ofNat 511 b.next = k ∧ k.val = b.next := ⟨_, rfl, Nat.mod_eq_of_lt hnext⟩
  rw [hmerge, hk]
  have old : ∀ i, i = x ∨ i = y ∨ i ∈ rest → i.val < b.next ∧ TreeAt b.node i (treeOf i) :=
    fun i hi => hpooled i (hperm.mem_iff.2 (by simpa using hi))
  obtain ⟨hx, hxt⟩ := old x (.inl rfl)
  obtain ⟨hy, hyt⟩ := old y (.inr (.inl rfl))
  have keep : ∀ i ∈ rest, mergedTrees treeOf k x y i = treeOf i := fun i hi =>
    Function.update_of_ne (fun he => absurd (old i (.inr (.inr hi))).1 (by simp [he, hkval])) _ _
  have new : mergedTrees treeOf k x y k = .node (treeOf x) (treeOf y) :=
    Function.update_self ..
  refine ⟨⟨mergedTrees treeOf k x y, ?_, fun i hi => ?_, ?_, ?_⟩, ?_⟩
  · exact hbelow.setIfInBounds hx hy _
  · rcases List.mem_append.1 hi with hi | hi
    · obtain ⟨hlt, htree⟩ := old i (.inr (.inr hi))
      exact ⟨Nat.lt_succ_of_lt hlt, (keep i hi).symm ▸ htree.setIfInBounds hbelow hlt _⟩
    · obtain rfl := List.mem_singleton.1 hi
      exact ⟨hkval ▸ Nat.lt_succ_self _, new ▸ TreeAt.setIfInBounds_self hbelow hkval hx hy hxt hyt _⟩
  · calc (rest ++ [k]).flatMap (fun i => (mergedTrees treeOf k x y i).symbols)
        = rest.flatMap (fun i => (treeOf i).symbols) ++ ((treeOf x).symbols ++ (treeOf y).symbols) := by
          rw [List.flatMap_append, List.flatMap_congr fun i hi => congrArg HuffTree.symbols (keep i hi)]
          simp [new]
      List.Perm _ ((treeOf x).symbols ++ (treeOf y).symbols ++ rest.flatMap (fun i => (treeOf i).symbols)) :=
          List.perm_append_comm
      _ = (x :: y :: rest).flatMap (fun i => (treeOf i).symbols) := by simp
      List.Perm _ (b.pool.flatMap fun i => (treeOf i).symbols) := (hperm.flatMap_right _).symm
      List.Perm _ syms := hsymbols
  · simp only [List.length_append, List.length_singleton]
    omega
  · simp only [List.length_append, List.length_singleton]
    omega

/-- `n` merges of `n + 1` trees leave one. -/
theorem Builder.Forest.mergeTimes {b : Builder} {treeOf : NodeIdx → HuffTree} {syms : List Sym} {n : Nat}
    (hf : b.Forest treeOf syms) (hsyms : syms.length ≤ 256) (hpool : b.pool.length = n + 1) :
    (∃ treeOf', (b.mergeTimes n).Forest treeOf' syms) ∧ (b.mergeTimes n).pool.length = 1 := by
  induction n generalizing b treeOf with
  | zero => exact ⟨⟨treeOf, hf⟩, hpool⟩
  | succ n ih =>
    obtain ⟨⟨treeOf', hf'⟩, hlen⟩ := hf.merge hsyms (by omega)
    exact ih hf' (by omega)

/-- The arena BUILD makes of a non-empty alphabet holds a tree over exactly that alphabet (41_tree_builder.md R123). -/
theorem builtArena_holdsTree {freq : Vector Word 256} (node : Vector Node 511) (h : alphabet freq ≠ []) :
    ∃ t, HoldsTree (builtArena freq node) t ∧ t.symbols.Perm (alphabet freq) := by
  have hpos := List.length_pos_iff.2 h
  obtain ⟨⟨treeOf, hf⟩, hlen⟩ := (builderStart_forest freq node).mergeTimes (n := (alphabet freq).length - 1)
    (alphabet_length_le freq) (by simp [builderStart]; omega)
  obtain ⟨i, hi⟩ := List.length_eq_one_iff.1 hlen
  have hperm : (treeOf i).symbols.Perm (alphabet freq) := by simpa [hi] using hf.symbols
  refine ⟨treeOf i, .of_treeAt ?_ (hperm.nodup_iff.2 (alphabet_nodup freq)) ?_, hperm⟩
  · have : (builtArena freq node).root = i := by simp only [builtArena, hi, List.headD_cons]
    rw [this]
    exact (hf.pooled i (by simp [hi])).2
  · rw [hperm.length_eq]
    rfl

end Sys2Proof.Machine

/-! LOAD leaves a tree in the arena: its loop fills every open slot with a tree (43_tree_codec.md R163, R167). -/

namespace Sys2Proof.Machine

/-! ## One pass of the loop -/

/-- The arena after a node `v` is stored at index `k` and `k` is filled into a slot. -/
def placeNode (node : Vector Node 511) (slot : Slot) (k : NodeIdx) (v : Node) : Vector Node 511 :=
  fillSlot (node.set k v) slot k

/-- A pass that succeeds reads an internal node and opens its two slots, or reads a leaf with a new symbol. -/
theorem loadNode_cases {s : State} {avail : Nat} {slot : Slot} {rest : List Slot} {ld ld' : Loader}
    (h : loadNode s avail slot rest ld = .ok ld') :
    (engineRead s (addrAt s.larg0 ld.off) = .ok 0x00#8 ∧
      ld' = { ld with
        node := placeNode ld.node slot (Fin.ofNat 511 ld.cnt) (.internal 0 0 0#40), off := ld.off + 1,
        cnt := ld.cnt + 1,
        slots := .left (Fin.ofNat 511 ld.cnt) :: .right (Fin.ofNat 511 ld.cnt) :: rest }) ∨
    ∃ sym, engineRead s (addrAt s.larg0 ld.off) = .ok 0x01#8 ∧ ld.off + 1 ≠ avail ∧
      engineRead s (addrAt s.larg0 (ld.off + 1)) = .ok sym ∧ sym ∉ ld.seen ∧
      ld' = { ld with
        node := placeNode ld.node slot (Fin.ofNat 511 ld.cnt) (.leaf sym 0#40), off := ld.off + 2,
        cnt := ld.cnt + 1, leaves := ld.leaves + 1, seen := sym :: ld.seen, slots := rest } := by
  unfold loadNode at h
  split at h
  · cases h
  · rename_i tag htag
    dsimp only at h
    split at h
    · rename_i h0
      cases h
      exact .inl ⟨h0 ▸ htag, rfl⟩
    · split at h
      · rename_i h1
        split at h
        · cases h
        · rename_i havail
          split at h
          · cases h
          · rename_i sym hsym
            split at h <;> cases h
            rename_i hseen
            exact .inr ⟨sym, h1 ▸ htag, havail, hsym, hseen, rfl⟩
      · cases h

/-- A loop that succeeds has no slot to fill, or makes a pass and goes on. -/
theorem loadLoop_cases {s : State} {avail room : Nat} {ld ld' : Loader} (h : loadLoop s avail room ld = .ok ld') :
    (ld.slots = [] ∧ ld' = ld) ∨
    ∃ room' slot rest ld1, room = room' + 1 ∧ ld.slots = slot :: rest ∧ ld.off ≠ avail ∧
      loadNode s avail slot rest ld = .ok ld1 ∧ loadLoop s avail room' ld1 = .ok ld' := by
  cases room with
  | zero =>
    unfold loadLoop at h
    split at h
    · rename_i hslots
      cases h
      exact .inl ⟨hslots, rfl⟩
    · split at h <;> cases h
  | succ room' =>
    unfold loadLoop at h
    split at h
    · rename_i hslots
      cases h
      exact .inl ⟨hslots, rfl⟩
    · rename_i slot rest hslots
      split at h
      · cases h
      · rename_i havail
        split at h
        · cases h
        · rename_i ld1 hnode
          exact .inr ⟨room', slot, rest, ld1, rfl, hslots, havail, hnode, h⟩

/-! ## Slots -/

/-- The child that a slot names is `k`; the root's slot names index 0. -/
def Slot.Holds (node : Vector Node 511) (k : NodeIdx) : Slot → Prop
  | .root => k = 0
  | .left p => ∃ r f, node[p] = .internal k r f
  | .right p => ∃ l f, node[p] = .internal l k f

/-- The parent of a slot is one of the first `cnt` nodes. -/
def Slot.Below (cnt : Nat) : Slot → Prop
  | .root => True
  | .left p => p.val < cnt
  | .right p => p.val < cnt

theorem Slot.Below.succ {cnt : Nat} {slot : Slot} (h : slot.Below cnt) : slot.Below (cnt + 1) := by
  cases slot with
  | root => trivial
  | left p => exact Nat.lt_succ_of_lt h
  | right p => exact Nat.lt_succ_of_lt h

/-- A slot of an earlier node is none of the next node's. -/
theorem Slot.Below.ne {cnt : Nat} {slot : Slot} {k : NodeIdx} (h : slot.Below cnt) (hk : k.val = cnt) :
    slot ≠ .left k ∧ slot ≠ .right k := by
  constructor <;>
  · rintro rfl
    exact Nat.ne_of_lt h hk

/-- The slots on LOAD's stack: distinct, each of a node read already, the root's only before the first node. -/
structure OpenSlots (node : Vector Node 511) (cnt : Nat) (slots : List Slot) : Prop where
  nodup : slots.Nodup
  below : ∀ slot ∈ slots, slot.Below cnt
  holds : ∀ slot ∈ slots, ∃ k, slot.Holds node k
  root : .root ∈ slots → cnt = 0

/-- `node'` has the first `cnt` nodes of `node`, but for the children in the slots `slots`. -/
structure Extends (node node' : Vector Node 511) (cnt : Nat) (slots : List Slot) : Prop where
  leaf : ∀ (i : NodeIdx) (sym : Sym) (f : NodeFreq), i.val < cnt → node[i] = .leaf sym f → node'[i] = .leaf sym f
  slot : ∀ (slot : Slot) (k : NodeIdx), slot.Below cnt → slot ∉ slots → slot.Holds node k → slot.Holds node' k

theorem Extends.trans {node node' node'' : Vector Node 511} {cnt : Nat} {slot : Slot} {rest slots : List Slot}
    (h : Extends node node' cnt [slot]) (h' : Extends node' node'' (cnt + 1) slots)
    (hs : ∀ x ∈ slots, x.Below cnt → x ∈ rest) : Extends node node'' cnt (slot :: rest) where
  leaf i sym f hi hf := h'.leaf i sym f (by omega) (h.leaf i sym f hi hf)
  slot x k hx hmem hk := by
    obtain ⟨hne, hrest⟩ := not_or.1 (List.mem_cons.not.1 hmem)
    exact h'.slot x k hx.succ (fun hm => hrest (hs x hm hx)) (h.slot x k hx (by simpa using hne) hk)


/-- The entry `i` after `k` is filled into a slot: only the slot's parent changes. -/
theorem fillSlot_getElem (node : Vector Node 511) (slot : Slot) (k i : NodeIdx) :
    (fillSlot node slot k)[i] =
      if slot = .left i then node[i].withLeft k else if slot = .right i then node[i].withRight k else node[i] := by
  cases slot with
  | root => simp [fillSlot]
  | left p =>
    by_cases h : p = i
    · subst h; simp [fillSlot]
    · have := Fin.val_ne_of_ne h
      simp [fillSlot, h, this]
  | right p =>
    by_cases h : p = i
    · subst h; simp [fillSlot]
    · have := Fin.val_ne_of_ne h
      simp [fillSlot, h, this]

section Place

variable {node : Vector Node 511} {cnt : Nat} {slot : Slot} {rest : List Slot} {k : NodeIdx} (v : Node)

/-- The stored node stands at its index. -/
theorem placeNode_self (hb : slot.Below cnt) (hk : k.val = cnt) : (placeNode node slot k v)[k] = v := by
  obtain ⟨hl, hr⟩ := hb.ne hk
  rw [placeNode, fillSlot_getElem, if_neg hl, if_neg hr]
  exact Vector.getElem_set_self k.isLt

/-- An earlier entry changes in the filled slot alone. -/
theorem placeNode_getElem_of_lt {i : NodeIdx} (hk : k.val = cnt) (hi : i.val < cnt) :
    (placeNode node slot k v)[i] =
      if slot = .left i then node[i].withLeft k else if slot = .right i then node[i].withRight k else node[i] := by
  have : (node.set k v)[i] = node[i] := Vector.getElem_set_ne _ _ (by omega)
  rw [placeNode, fillSlot_getElem, this]

/-- The first `cnt` nodes stay as they were, but for the filled slot. -/
theorem placeNode_extends (hk : k.val = cnt) : Extends node (placeNode node slot k v) cnt [slot] where
  leaf i sym f hi hf := by
    rw [placeNode_getElem_of_lt v hk hi, hf]
    simp only [Node.withLeft, Node.withRight, ite_self]
  slot x j hx hmem hj := by
    cases x with
    | root => exact hj
    | left p =>
      obtain ⟨r, f, hf⟩ := hj
      have hne : slot ≠ .left p := fun he => hmem (he ▸ List.mem_singleton_self _)
      simp only [Slot.Holds]
      rw [placeNode_getElem_of_lt v hk hx, if_neg hne, hf]
      split
      · exact ⟨k, f, rfl⟩
      · exact ⟨r, f, rfl⟩
    | right p =>
      obtain ⟨l, f, hf⟩ := hj
      have hne : slot ≠ .right p := fun he => hmem (he ▸ List.mem_singleton_self _)
      simp only [Slot.Holds]
      rw [placeNode_getElem_of_lt v hk hx, if_neg hne, hf]
      split
      · exact ⟨k, f, rfl⟩
      · exact ⟨l, f, rfl⟩

/-- The filled slot holds the new index. -/
theorem placeNode_holds (h : OpenSlots node cnt (slot :: rest)) (hk : k.val = cnt) :
    slot.Holds (placeNode node slot k v) k := by
  have hb := h.below slot (by simp)
  obtain ⟨j, hj⟩ := h.holds slot (by simp)
  cases slot with
  | root => exact Fin.ext (hk.trans (h.root (by simp)))
  | left p =>
    obtain ⟨r, f, hf⟩ := hj
    exact ⟨r, f, by rw [placeNode_getElem_of_lt v hk hb, if_pos rfl, hf]; rfl⟩
  | right p =>
    obtain ⟨l, f, hf⟩ := hj
    exact ⟨l, f, by rw [placeNode_getElem_of_lt v hk hb, if_neg (by simp), if_pos rfl, hf]; rfl⟩

/-- The other slots stay open, and the root's is none of them. -/
theorem OpenSlots.place (h : OpenSlots node cnt (slot :: rest)) (hk : k.val = cnt) :
    OpenSlots (placeNode node slot k v) (cnt + 1) rest := by
  obtain ⟨hnot, hnodup⟩ := List.nodup_cons.1 h.nodup
  refine ⟨hnodup, fun x hx => (h.below x (.tail _ hx)).succ, fun x hx => ?_, fun hroot => ?_⟩
  · obtain ⟨j, hj⟩ := h.holds x (.tail _ hx)
    refine ⟨j, (placeNode_extends v hk).slot x j (h.below x (.tail _ hx)) ?_ hj⟩
    exact fun hm => hnot (List.mem_singleton.1 hm ▸ hx)
  · have hcnt := h.root (.tail _ hroot)
    have hb := h.below slot (by simp)
    cases slot with
    | root => exact absurd hroot hnot
    | left p => exact absurd hb (by simp [Slot.Below, hcnt])
    | right p => exact absurd hb (by simp [Slot.Below, hcnt])

/-- A new internal node opens its two slots on top of the others. -/
theorem OpenSlots.branch (h : OpenSlots node cnt (slot :: rest)) (hk : k.val = cnt) (l r : NodeIdx) (f : NodeFreq) :
    OpenSlots (placeNode node slot k (.internal l r f)) (cnt + 1) (.left k :: .right k :: rest) := by
  have hself := placeNode_self (node := node) (.internal l r f) (h.below slot (by simp)) hk
  have hrest := h.place (.internal l r f) hk
  have hnew : ∀ x ∈ rest, x ≠ .left k ∧ x ≠ .right k := fun x hx => (h.below x (.tail _ hx)).ne hk
  refine ⟨?_, ?_, ?_, fun hroot => hrest.root (by simpa using hroot)⟩
  · simp only [List.nodup_cons, List.mem_cons, not_or]
    exact ⟨⟨by simp, fun hm => (hnew _ hm).1 rfl⟩, fun hm => (hnew _ hm).2 rfl, hrest.nodup⟩
  · simp only [List.forall_mem_cons]
    exact ⟨by simp [Slot.Below, hk], by simp [Slot.Below, hk], hrest.below⟩
  · simp only [List.forall_mem_cons]
    exact ⟨⟨l, r, f, hself⟩, ⟨r, l, f, hself⟩, hrest.holds⟩

end Place

/-! ## The trees LOAD's loop reads -/

/-- The trees `ts` stand in the slots of the stack, each below the child its slot names. -/
def Filled (node : Vector Node 511) (slots : List Slot) (ts : List HuffTree) : Prop :=
  List.Forall₂ (fun slot t => ∃ k, slot.Holds node k ∧ TreeAt node k t) slots ts

/-- The engine reads the bytes `bytes` from offset `off` of the region at `base` on. -/
def ReadsBytes (s : State) (base : Addr) (off : Nat) (bytes : List Byte) : Prop :=
  ∀ (j : Nat) (hj : j < bytes.length), engineRead s (addrAt base (off + j)) = .ok bytes[j]

theorem ReadsBytes.cons {s : State} {base : Addr} {off : Nat} {v : Byte} {bytes : List Byte}
    (hv : engineRead s (addrAt base off) = .ok v) (h : ReadsBytes s base (off + 1) bytes) :
    ReadsBytes s base off (v :: bytes) := by
  intro j hj
  cases j with
  | zero => exact hv
  | succ j =>
    have := h j (Nat.lt_of_succ_lt_succ hj)
    rwa [Nat.add_right_comm] at this

/-- What a loop that ends without error did from the state `ld` of LOAD's parse in `s`: it filled the slots with trees,
left the rest of the nodes read before alone, counted the trees' leaves, whose symbols were all new, and read the trees'
bytes and no others, within the `avail` bytes there are. -/
structure Loaded (s : State) (avail : Nat) (ld ld' : Loader) (ts : List HuffTree) : Prop where
  filled : Filled ld'.node ld.slots ts
  extend : Extends ld.node ld'.node ld.cnt ld.slots
  leaves : ld'.leaves = ld.leaves + (ts.flatMap HuffTree.symbols).length
  seen : ld'.seen.reverse = ld.seen.reverse ++ ts.flatMap HuffTree.symbols
  fresh : ld.seen.Nodup → ld'.seen.Nodup
  reads : ReadsBytes s s.larg0 ld.off (ts.flatMap HuffTree.serialize)
  off : ld'.off = ld.off + (ts.flatMap HuffTree.serialize).length
  avail : ld.off ≤ avail → ld'.off ≤ avail

/-- With no slot open the loop has nothing to read. -/
theorem Loaded.refl {s : State} {avail : Nat} {ld : Loader} (h : ld.slots = []) : Loaded s avail ld ld [] where
  filled := h ▸ .nil
  extend := ⟨fun _ _ _ _ hf => hf, fun _ _ _ _ hk => hk⟩
  leaves := rfl
  seen := by simp
  fresh := id
  reads _ hj := absurd hj (Nat.not_lt_zero _)
  off := rfl
  avail := id

section Step

variable {s : State} {avail : Nat} {ld ld' : Loader} {slot : Slot} {rest : List Slot} {k : NodeIdx} {ts : List HuffTree}

/-- A leaf fills its slot. -/
theorem Loaded.leaf {sym : Sym} (hslots : ld.slots = slot :: rest) (hopen : OpenSlots ld.node ld.cnt ld.slots)
    (hk : k.val = ld.cnt) (htag : engineRead s (addrAt s.larg0 ld.off) = .ok 0x01#8)
    (hsym : engineRead s (addrAt s.larg0 (ld.off + 1)) = .ok sym) (havail : ld.off ≠ avail)
    (havail' : ld.off + 1 ≠ avail) (hnew : sym ∉ ld.seen)
    (h : Loaded s avail
      { node := placeNode ld.node slot k (.leaf sym 0#40), off := ld.off + 2, cnt := ld.cnt + 1,
        leaves := ld.leaves + 1, seen := sym :: ld.seen, slots := rest } ld' ts) :
    Loaded s avail ld ld' (.leaf sym :: ts) := by
  rw [hslots] at hopen
  obtain ⟨filled, extend, leaves, seen, fresh, reads, off, bound⟩ := h
  have hb := hopen.below slot (by simp)
  refine ⟨?_, ?_, ?_, ?_, fun hd => fresh (hd.cons hnew), .cons htag (.cons hsym reads), ?_, fun hle => bound ?_⟩
  · rw [hslots]
    exact .cons ⟨k, extend.slot slot k hb.succ (List.nodup_cons.1 hopen.nodup).1 (placeNode_holds _ hopen hk),
      _, extend.leaf k sym _ (by simp [hk]) (placeNode_self _ hb hk)⟩ filled
  · rw [hslots]
    exact (placeNode_extends _ hk).trans extend fun x hx _ => hx
  · rw [leaves, List.flatMap_cons, HuffTree.symbols_leaf, List.length_append, List.length_singleton, Nat.add_assoc]
  · simp [seen]
  · rw [off, List.flatMap_cons, HuffTree.serialize_leaf, List.length_append, Nat.add_assoc]
    rfl
  · simp only
    omega

/-- An internal node fills its slot when its own two are filled. -/
theorem Loaded.branch (hslots : ld.slots = slot :: rest) (hopen : OpenSlots ld.node ld.cnt ld.slots)
    (hk : k.val = ld.cnt) (htag : engineRead s (addrAt s.larg0 ld.off) = .ok 0x00#8) (havail : ld.off ≠ avail)
    (h : Loaded s avail
      { ld with
        node := placeNode ld.node slot k (.internal 0 0 0#40), off := ld.off + 1, cnt := ld.cnt + 1,
        slots := .left k :: .right k :: rest } ld' ts) : ∃ ts', Loaded s avail ld ld' ts' := by
  rw [hslots] at hopen
  obtain ⟨filled, extend, leaves, seen, fresh, reads, off, bound⟩ := h
  have hb := hopen.below slot (by simp)
  obtain ⟨hl, hr⟩ := hb.ne hk
  obtain ⟨tl, _, ⟨l, hleft, htl⟩, filledR, rfl⟩ := List.forall₂_cons_left_iff.1 filled
  obtain ⟨tr, ts, ⟨r, hright, htr⟩, filledRest, rfl⟩ := List.forall₂_cons_left_iff.1 filledR
  obtain ⟨r', f, hf⟩ := hleft
  obtain ⟨l', f', hf'⟩ := hright
  obtain ⟨-, rfl, -⟩ : l = l' ∧ r' = r ∧ f = f' := by simpa using hf.symm.trans hf'
  refine ⟨.node tl tr :: ts, ?_, ?_, by simpa using leaves, by simpa using seen, fresh, ?_, ?_, fun hle => bound ?_⟩
  · rw [hslots]
    refine .cons ⟨k, extend.slot slot k hb.succ ?_ (placeNode_holds _ hopen hk), l, r', f, hf, htl, htr⟩ filledRest
    simpa [hl, hr] using (List.nodup_cons.1 hopen.nodup).1
  · rw [hslots]
    refine (placeNode_extends _ hk).trans extend fun x hx hxb => ?_
    simpa [hxb.ne hk] using hx
  · simpa using reads.cons htag
  · simp only [off, List.flatMap_cons, HuffTree.serialize_node, List.length_append, List.length_cons]
    omega
  · simp only
    omega

end Step

/-- LOAD's loop, ending without error, filled every open slot with a tree. -/
theorem loadLoop_loaded {s : State} {avail room : Nat} {ld ld' : Loader} (h : loadLoop s avail room ld = .ok ld')
    (hroom : ld.cnt + room = 511) (hopen : OpenSlots ld.node ld.cnt ld.slots) : ∃ ts, Loaded s avail ld ld' ts := by
  induction room generalizing ld with
  | zero =>
    rcases loadLoop_cases h with ⟨hslots, rfl⟩ | ⟨_, _, _, _, h0, _⟩
    · exact ⟨[], .refl hslots⟩
    · cases h0
  | succ room ih =>
    rcases loadLoop_cases h with ⟨hslots, rfl⟩ | ⟨_, slot, rest, ld1, hr, hslots, havail, hnode, hrest⟩
    · exact ⟨[], .refl hslots⟩
    · cases hr
      have hk : (Fin.ofNat 511 ld.cnt).val = ld.cnt := Nat.mod_eq_of_lt (by omega)
      rcases loadNode_cases hnode with ⟨htag, rfl⟩ | ⟨sym, htag, havail', hsym, hnew, rfl⟩
      · obtain ⟨ts, hts⟩ := ih hrest (by simp only; omega) ((hslots ▸ hopen).branch hk 0 0 0#40)
        exact hts.branch hslots hopen hk htag havail
      · obtain ⟨ts, hts⟩ := ih hrest (by simp only; omega) ((hslots ▸ hopen).place _ hk)
        exact ⟨_, hts.leaf hslots hopen hk htag hsym havail havail' hnew⟩

/-- Before the loop the root's slot is open. -/
theorem loaderStart_openSlots (node : Vector Node 511) :
    OpenSlots (loaderStart node).node (loaderStart node).cnt (loaderStart node).slots where
  nodup := List.nodup_singleton _
  below slot h := by
    obtain rfl := List.mem_singleton.1 h
    trivial
  holds slot h := by
    obtain rfl := List.mem_singleton.1 h
    exact ⟨0, rfl⟩
  root _ := rfl

/-- A parse without error leaves a tree at index 0, its leaves distinct and counted (43_tree_codec.md R163), and read
exactly the tree's bytes. -/
theorem parseTree_holdsTree {s : State} {ld : Loader} (h : parseTree s = .ok ld) :
    ∃ t, HoldsTree ⟨ld.node, 0, BitVec.ofNat 9 ld.leaves⟩ t ∧ ReadsBytes s s.larg0 0 t.serialize ∧
      ld.leaves = t.symbols.length ∧ ld.off = t.serialize.length ∧ ld.off ≤ s.larg1.toNat := by
  obtain ⟨ts, filled, -, leaves, seen, fresh, reads, off, bound⟩ :=
    loadLoop_loaded h rfl (loaderStart_openSlots _)
  obtain ⟨t, _, ⟨k, hk, ht⟩, hempty, rfl⟩ := List.forall₂_cons_left_iff.1 filled
  obtain rfl := List.forall₂_nil_left_iff.1 hempty
  obtain rfl : k = 0 := hk
  simp only [loaderStart, List.flatMap_singleton, List.reverse_nil, List.nil_append,
    Nat.zero_add] at leaves seen off reads
  refine ⟨t, .of_treeAt ht ?_ (by rw [leaves]), reads, leaves, off, bound (Nat.zero_le _)⟩
  rw [← seen, List.nodup_reverse]
  exact fresh List.nodup_nil

/-! ## The invariant of the tree -/

/-- Every command keeps the tree invariant: BUILD and LOAD leave a tree, and no other command writes the arena. -/
theorem exec_keeps_treeLegal {i : Instr} {s t : State} (h : exec i s = .next t) (hs : TreeLegal s) : TreeLegal t := by
  have dropped : ∀ e : CmdError, TreeLegal (s.dropTree.raiseError e) := fun e hv => Bool.noConfusion hv
  by_cases hb : i = .build
  · subst hb
    rcases execBuild_cases h with ⟨e, rfl⟩ | ⟨r0, r1, halph, rfl⟩
    · exact dropped e
    · obtain ⟨tr, htr, -⟩ := builtArena_holdsTree s.freeNodes halph
      exact fun _ => ⟨tr, htr⟩
  · by_cases hl : i = .load
    · subst hl
      rcases execLoad_cases h with ⟨e, rfl⟩ | ⟨ld, r0, r1, hld, rfl⟩
      · exact dropped e
      · obtain ⟨tr, htr, -⟩ := parseTree_holdsTree hld
        exact fun _ => ⟨tr, htr⟩
    · exact hs.of_keepsTree (exec_keepsTree h hb hl)

/-- Settles O48: the tree's valid bit by command, with `exec_keeps_treeLegal` for its meaning. -/
theorem treeValidFollowsBuildAndLoad : Obligations.TreeValidFollowsBuildAndLoad := by
  unfold Obligations.TreeValidFollowsBuildAndLoad
  intro i s t h
  exact ⟨treeValid_of_exec_build_or_load h, fun hb hl => (exec_keepsTree h hb hl).2, exec_keeps_treeLegal h, rfl⟩

end Sys2Proof.Machine

/-! Refusal of bad regions: the region checks decide, and no later step raises BadRegion (20_memory.md R66, R67;
60_exceptions.md R234). -/

namespace Sys2Proof.Machine

/-! ## The region checks -/

theorem Region.wraps_eq_true_iff {r : Region} : r.wraps = true ↔ 0 < r.len ∧ 2 ^ 32 < r.base.toNat + r.len := by
  simp [Region.wraps]

theorem Region.overlaps_eq_true_iff {r t : Region} :
    r.overlaps t = true ↔
      0 < r.len ∧ 0 < t.len ∧ r.base.toNat < t.base.toNat + t.len ∧ t.base.toNat < r.base.toNat + r.len := by
  simp [Region.overlaps, and_assoc]

theorem Region.overlaps_eq_false_iff {r t : Region} : r.overlaps t = false ↔ r.Apart t := by
  rw [← Bool.not_eq_true, Region.overlaps_eq_true_iff]
  simp only [Region.Apart]
  omega

theorem checkRegions_of_source_wraps {src dst : Region} (h : src.wraps = true) :
    checkRegions src dst = .error ⟨.badRegion, src.base, 0#11⟩ := by
  simp [checkRegions, checkSource, h]

theorem checkRegions_of_dest_wraps {src dst : Region} (hs : src.wraps = false) (hd : dst.wraps = true) :
    checkRegions src dst = .error ⟨.badRegion, dst.base, 1#11⟩ := by
  simp [checkRegions, checkSource, checkDest, hs, hd]

theorem checkRegions_of_overlaps {src dst : Region} (hs : src.wraps = false) (hd : dst.wraps = false)
    (h : src.overlaps dst = true) : checkRegions src dst = .error ⟨.badRegion, dst.base, 2#11⟩ := by
  simp [checkRegions, checkSource, checkDest, hs, hd, h]

/-- A command without a destination checks its source alone. -/
theorem checkRegions_empty_dest (src : Region) (a : Addr) : checkRegions src ⟨a, 0⟩ = checkSource src := by
  unfold checkRegions checkSource
  cases src.wraps <;> simp [checkDest, Region.wraps, Region.overlaps]

/-- A command without a source checks its destination alone. -/
theorem checkRegions_empty_source (dst : Region) (a : Addr) : checkRegions ⟨a, 0⟩ dst = checkDest dst := by
  unfold checkRegions checkDest
  cases dst.wraps <;> simp [checkSource, Region.wraps, Region.overlaps]

/-! ## The checks of a command that is ready -/

/-- The check of an output size known in advance, which RDCODE and SAVE make (60_exceptions.md R234, check 4). -/
def sizeChecks (i : Instr) (s : State) : List (Except CmdError Unit) :=
  match i with
  | .rdcode _ => [checkRoom s.larg3 32]
  | .save => [checkRoom s.larg3 s.saveSize]
  | _ => []

theorem kind_of_checkRoom_error {cap : Word} {size : Nat} {e : CmdError} (h : checkRoom cap size = .error e) :
    e.kind = .outputOverflow := by
  unfold checkRoom at h
  split at h <;> cases h
  rfl

/-- A size check raises nothing but OutputOverflow. -/
theorem kind_of_sizeChecks_error {i : Instr} {s : State} {e : CmdError} (h : firstError (sizeChecks i s) = .error e) :
    e.kind = .outputOverflow := by
  cases i with
  | rdcode sym => exact kind_of_checkRoom_error (List.mem_singleton.1 (firstError_mem h)).symm
  | save => exact kind_of_checkRoom_error (List.mem_singleton.1 (firstError_mem h)).symm
  | _ => cases h

/-- With its valid bit set, a command checks its regions, then its size (60_exceptions.md R234, checks 2 to 4). -/
theorem commandChecks_of_ready {i : Instr} {s : State} (hr : CommandReady i s) :
    commandChecks i s = firstError (checkRegions (sourceRegion i s) (destRegion i s) :: sizeChecks i s) := by
  cases i with
  | clrfreq => rfl
  | setfreq sym => rfl
  | ldfreq => simp [commandChecks, checksOf, sourceRegion, destRegion, checkRegions_empty_dest, sizeChecks]
  | build => rfl
  | gencodes =>
    show firstError [checkTree s] = _
    rw [checkTree_eq_ok_iff.2 hr]
    rfl
  | rdcode sym =>
    simp [commandChecks, checksOf, checkCodes_eq_ok_iff.2 hr, firstError, sourceRegion,
      checkRegions_empty_source, sizeChecks]
  | encode => simp [commandChecks, checksOf, checkCodes_eq_ok_iff.2 hr, firstError, sizeChecks]
  | decode => simp [commandChecks, checksOf, checkTree_eq_ok_iff.2 hr, firstError, sizeChecks]
  | save =>
    simp [commandChecks, checksOf, checkTree_eq_ok_iff.2 hr, firstError, sourceRegion,
      checkRegions_empty_source, sizeChecks]
  | load => simp [commandChecks, checksOf, sourceRegion, destRegion, checkRegions_empty_dest, sizeChecks]

/-- A command that fails a check before any access ends with that error; LOAD drops the old tree, too. -/
theorem exec_of_checks_error {i : Instr} {s : State} {e : CmdError} (h : commandChecks i s = .error e) :
    exec i s = .next ((if i = .load then s.dropTree else s).raiseError e) := by
  cases i with
  | clrfreq => cases h
  | setfreq sym => cases h
  | build => cases h
  | ldfreq =>
    unfold exec execLdfreq
    rw [h]
    rfl
  | gencodes => simp [exec, execGencodes, h]
  | rdcode sym => simp [exec, execRdcode, h]
  | encode => simp [exec, execEncode, h]
  | decode => simp [exec, execDecode, h]
  | save => simp [exec, execSave, h]
  | load => simp [exec, execLoad, h]

/-- A command that fails a check before any access raises the error and leaves the memory alone. -/
theorem exec_raises_of_checks_error {i : Instr} {s : State} {e : CmdError} (h : commandChecks i s = .error e) :
    ∃ t, exec i s = .next t ∧ Raised s t e ∧ KeepsMemory s t := by
  refine ⟨_, exec_of_checks_error h, ?_⟩
  split <;> exact ⟨⟨rfl, rfl, rfl, rfl, rfl, rfl, rfl⟩, fun _ => rfl⟩

/-- A ready command that fails a region check raises that check's error. -/
theorem exec_raises_of_regions_error {i : Instr} {s : State} {e : CmdError} (hr : CommandReady i s)
    (h : checkRegions (sourceRegion i s) (destRegion i s) = .error e) :
    ∃ t, exec i s = .next t ∧ Raised s t e ∧ KeepsMemory s t :=
  exec_raises_of_checks_error (by rw [commandChecks_of_ready hr, h]; rfl)

/-! ## What is raised after the checks -/

theorem kind_of_engineRead_error {s : State} {a : Addr} {e : CmdError} (h : engineRead s a = .error e) :
    e.kind = .ioFailure := by
  rw [(engineRead_eq_error_iff.1 h).2]

theorem kind_of_readFreqWord_error {s : State} {a : Addr} {e : CmdError} (h : readFreqWord s a = .error e) :
    e.kind = .ioFailure := by
  unfold readFreqWord at h
  repeat' split at h
  all_goals cases h
  all_goals exact kind_of_engineRead_error (by assumption)

theorem kind_of_readFreqWords_error {s : State} {base : Addr} {n k : Nat} {e : CmdError}
    (h : readFreqWords s base n k = .error e) : e.kind = .ioFailure := by
  induction n generalizing k with
  | zero => cases h
  | succ n ih =>
    unfold readFreqWords at h
    split at h
    · rename_i hw
      cases h; exact kind_of_readFreqWord_error hw
    · split at h <;> cases h
      rename_i hrest
      exact ih hrest

theorem kind_of_encodeCheck_error {s : State} {limit n i total : Nat} {e : CmdError}
    (h : encodeCheck s limit n i total = .error e) :
    e.kind = .ioFailure ∨ e.kind = .unknownSymbol ∨ e.kind = .outputOverflow := by
  induction n generalizing i total with
  | zero => cases h
  | succ n ih =>
    unfold encodeCheck at h
    split at h
    · rename_i hread
      cases h; exact .inl (kind_of_engineRead_error hread)
    · dsimp only at h
      split at h
      · cases h; exact .inr (.inl rfl)
      · split at h
        · cases h; exact .inr (.inr rfl)
        · exact ih h

theorem kind_of_encodeBits_error {s : State} {n i : Nat} {e : CmdError} (h : encodeBits s n i = .error e) :
    e.kind = .ioFailure := by
  induction n generalizing i with
  | zero => cases h
  | succ n ih =>
    unfold encodeBits at h
    split at h
    · rename_i hread
      cases h; exact kind_of_engineRead_error hread
    · split at h <;> cases h
      rename_i hrest
      exact ih hrest

theorem kind_of_decodeWalk_error {s : State} {t : HuffTree} {cap n k : Nat} {pos : DecPos} {out : List Sym}
    {e : CmdError} (h : decodeWalk s t cap n k pos out = .error e) :
    e.kind = .ioFailure ∨ e.kind = .corruptStream ∨ e.kind = .outputOverflow := by
  induction n generalizing k pos out with
  | zero => cases h
  | succ n ih =>
    unfold decodeWalk unpackBit at h
    split at h
    · rename_i hbit
      split at hbit <;> cases hbit
      rename_i hread
      cases h; exact .inl (kind_of_engineRead_error hread)
    · split at h
      · cases h; exact .inr (.inl rfl)
      · exact ih h
      · split at h
        · cases h; exact .inr (.inr rfl)
        · exact ih h

theorem kind_of_decodeSymbols_error {s : State} {t : HuffTree} {e : CmdError} (h : decodeSymbols s t = .error e) :
    e.kind = .ioFailure ∨ e.kind = .corruptStream ∨ e.kind = .outputOverflow ∨ e.kind = .truncatedStream := by
  unfold decodeSymbols at h
  split at h
  · rename_i hwalk
    cases h
    have := kind_of_decodeWalk_error hwalk
    tauto
  · cases h
  · cases h; exact .inr (.inr (.inr rfl))

theorem kind_of_loadNode_error {s : State} {avail : Nat} {slot : Slot} {rest : List Slot} {ld : Loader} {e : CmdError}
    (h : loadNode s avail slot rest ld = .error e) : e.kind = .ioFailure ∨ e.kind = .malformedTree := by
  unfold loadNode at h
  split at h
  · rename_i hread
    cases h; exact .inl (kind_of_engineRead_error hread)
  · dsimp only at h
    split at h
    · cases h
    · split at h
      · split at h
        · cases h; exact .inr rfl
        · split at h
          · rename_i hread
            cases h; exact .inl (kind_of_engineRead_error hread)
          · split at h <;> cases h
            exact .inr rfl
      · cases h; exact .inr rfl

theorem kind_of_loadLoop_error {s : State} {avail room : Nat} {ld : Loader} {e : CmdError}
    (h : loadLoop s avail room ld = .error e) : e.kind = .ioFailure ∨ e.kind = .malformedTree := by
  induction room generalizing ld with
  | zero =>
    unfold loadLoop at h
    split at h
    · cases h
    · split at h <;> cases h <;> exact .inr rfl
  | succ room ih =>
    unfold loadLoop at h
    split at h
    · cases h
    · split at h
      · cases h; exact .inr rfl
      · split at h
        · rename_i hnode
          cases h; exact kind_of_loadNode_error hnode
        · exact ih h

theorem writeAndComplete_err (base : Addr) (bytes : List Byte) (r0 r1 : Word) (s : State) :
    (writeAndComplete base bytes r0 r1 s).err = 0#4 ∨
      (writeAndComplete base bytes r0 r1 s).err = ErrorKind.ioFailure.code := by
  rcases writeAndComplete_cases base bytes r0 r1 s with ⟨t, -, h⟩ | ⟨t, e, hw, h⟩
  · exact .inl (by rw [h, State.complete_err])
  · obtain ⟨i, -, rfl, -⟩ := writeBytes_error hw
    exact .inr (by rw [h, State.raiseError_err])

/-! ## No BadRegion after the checks -/

theorem ErrorKind.code_eq_badRegion_iff {k : ErrorKind} : k.code = 11#4 ↔ k = .badRegion := by
  cases k <;> decide

theorem State.raiseError_err_ne_badRegion (s : State) {e : CmdError} (h : e.kind ≠ .badRegion) :
    (s.raiseError e).err ≠ 11#4 := fun hc => h (ErrorKind.code_eq_badRegion_iff.1 hc)

theorem writeAndComplete_err_ne_badRegion {base : Addr} {bytes : List Byte} {r0 r1 : Word} {s : State} :
    (writeAndComplete base bytes r0 r1 s).err ≠ 11#4 := by
  rcases writeAndComplete_err base bytes r0 r1 s with h | h <;> rw [h] <;> decide

/-- A command that passed its checks raises no BadRegion: what it raises is found in its data, or by a failing access
(60_exceptions.md R234, check 5). -/
theorem exec_err_ne_badRegion_of_checks_ok {i : Instr} {s t : State} (hc : commandChecks i s = .ok ())
    (h : exec i s = .next t) : t.err ≠ 11#4 := by
  have completed : (0#4 : BitVec 4) ≠ 11#4 := by decide
  cases i with
  | clrfreq => cases h; exact completed
  | setfreq sym => cases h; exact completed
  | ldfreq =>
    unfold exec execLdfreq at h
    rw [hc] at h
    dsimp only at h
    split at h <;> cases h
    · rename_i hread
      exact s.raiseError_err_ne_badRegion (by simp [kind_of_readFreqWords_error hread])
    · exact completed
  | build =>
    simp only [exec, execBuild] at h
    split at h
    · split at h <;> cases h
      · exact s.dropTree.raiseError_err_ne_badRegion (by simp)
      · exact completed
    · cases h
  | gencodes =>
    simp only [exec, execGencodes, hc] at h
    split at h <;> cases h
    exact completed
  | rdcode sym =>
    simp only [exec, execRdcode, hc] at h
    cases h; exact writeAndComplete_err_ne_badRegion
  | encode =>
    simp only [exec, execEncode, hc] at h
    split at h
    · rename_i htotal
      cases h
      exact s.raiseError_err_ne_badRegion (by rcases kind_of_encodeCheck_error htotal with hk | hk | hk <;> simp [hk])
    · split at h <;> cases h
      · rename_i hbits
        exact s.raiseError_err_ne_badRegion (by simp [kind_of_encodeBits_error hbits])
      · exact writeAndComplete_err_ne_badRegion
  | decode =>
    simp only [exec, execDecode, hc] at h
    split at h
    · cases h
    · split at h <;> cases h
      · rename_i hsyms
        exact s.raiseError_err_ne_badRegion
          (by rcases kind_of_decodeSymbols_error hsyms with hk | hk | hk | hk <;> simp [hk])
      · exact writeAndComplete_err_ne_badRegion
  | save =>
    simp only [exec, execSave, hc] at h
    split at h <;> cases h
    exact writeAndComplete_err_ne_badRegion
  | load =>
    simp only [exec, execLoad, hc] at h
    split at h <;> cases h
    · rename_i hparse
      exact s.dropTree.raiseError_err_ne_badRegion (by rcases kind_of_loadLoop_error hparse with hk | hk <;> simp [hk])
    · exact completed

/-- A ready command whose regions pass raises no BadRegion. -/
theorem exec_err_ne_badRegion_of_regions_ok {i : Instr} {s t : State} (hr : CommandReady i s)
    (hreg : checkRegions (sourceRegion i s) (destRegion i s) = .ok ()) (h : exec i s = .next t) : t.err ≠ 11#4 := by
  have hchecks : commandChecks i s = firstError (sizeChecks i s) := by
    rw [commandChecks_of_ready hr, hreg]; rfl
  cases hsize : firstError (sizeChecks i s) with
  | ok u => exact exec_err_ne_badRegion_of_checks_ok (hchecks.trans hsize) h
  | error e =>
    rw [exec_of_checks_error (hchecks.trans hsize)] at h
    cases h
    exact State.raiseError_err_ne_badRegion _ (by simp [kind_of_sizeChecks_error hsize])

/-- Settles O47: the region checks in their order, with `exec_err_ne_badRegion_of_regions_ok` for regions that pass. -/
theorem badRegionsAreRefused : Obligations.BadRegionsAreRefused := by
  unfold Obligations.BadRegionsAreRefused
  intro i s _ hr
  refine ⟨fun hlen hwrap => ?_, fun hsrc hlen hwrap => ?_, fun hsrc hdst hs hd hlow hhigh => ?_,
    fun hsrc hdst hapart t => ?_⟩
  · exact exec_raises_of_regions_error hr (checkRegions_of_source_wraps (Region.wraps_eq_true_iff.2 ⟨hlen, hwrap⟩))
  · exact exec_raises_of_regions_error hr
      (checkRegions_of_dest_wraps (Region.wraps_eq_false_iff.2 hsrc) (Region.wraps_eq_true_iff.2 ⟨hlen, hwrap⟩))
  · exact exec_raises_of_regions_error hr
      (checkRegions_of_overlaps (Region.wraps_eq_false_iff.2 hsrc) (Region.wraps_eq_false_iff.2 hdst)
        (Region.overlaps_eq_true_iff.2 ⟨hs, hd, hlow, hhigh⟩))
  · exact exec_err_ne_badRegion_of_regions_ok hr
      (checkRegions_eq_ok_iff.2 ⟨Region.wraps_eq_false_iff.2 hsrc, Region.wraps_eq_false_iff.2 hdst,
        Region.overlaps_eq_false_iff.2 hapart⟩)

end Sys2Proof.Machine

/-! Command words: the decoder as the inverse of the fields, the opcode table's rows against the three checks, and what
issue and the engine's decoding make of a word (30_encoding.md R81, R84 to R87). -/

namespace Sys2Proof

/-! ## The decoder -/

/-- Every assigned opcode has its command, which takes the symbol where the opcode does (30_encoding.md R84). -/
theorem exists_instrOfOpcode {opc : BitVec 8} (h : opc ∈ assignedOpcodes) (sym : Sym) :
    ∃ i, instrOfOpcode opc sym = some i ∧ i.opcode = opc ∧
      i.symField = if opcodeTakesSym opc then sym else 0#8 := by
  simp only [assignedOpcodes, List.mem_cons, List.not_mem_nil, or_false] at h
  rcases h with rfl | rfl | rfl | rfl | rfl | rfl | rfl | rfl | rfl | rfl <;> exact ⟨_, rfl, rfl, rfl⟩

theorem instrOfOpcode_of_unassigned {opc : BitVec 8} (h : opc ∉ assignedOpcodes) (sym : Sym) :
    instrOfOpcode opc sym = none := by
  simp only [assignedOpcodes, List.mem_cons, List.not_mem_nil, or_false, not_or] at h
  simp only [instrOfOpcode, h, if_false]

/-- Check 3 of 30_encoding.md R87 with its opcodes written out. -/
theorem Fields.symOk_eq_true_iff {f : Fields} :
    f.symOk = true ↔ f.opc = 0x02#8 ∨ f.opc = 0x12#8 ∨ f.sym = 0#8 := by
  simp [Fields.symOk, opcodeTakesSym, or_assoc]

/-- The decoder's last test is the failure of check 3. -/
theorem Fields.not_takesSym_and_sym_ne (f : Fields) : (!opcodeTakesSym f.opc && f.sym != 0#8) = !f.symOk := by
  rw [Fields.symOk, Bool.not_or, bne]

/-- Check 1 of 30_encoding.md R87. -/
theorem decodeFields_of_unassigned {f : Fields} (h : f.opc ∉ assignedOpcodes) :
    decodeFields f = .error .unassignedOpcode := by
  simp only [decodeFields, instrOfOpcode_of_unassigned h]

/-- Check 2 of 30_encoding.md R87, made before check 3. -/
theorem decodeFields_of_rsv_ne_zero {f : Fields} (h : f.opc ∈ assignedOpcodes) (hr : f.rsv ≠ 0#16) :
    decodeFields f = .error .nonzeroRsv := by
  obtain ⟨i, hi, -⟩ := exists_instrOfOpcode h f.sym
  simp only [decodeFields, hi, if_pos hr]

/-- Check 3 of 30_encoding.md R87. -/
theorem decodeFields_of_not_symOk {f : Fields} (h : f.opc ∈ assignedOpcodes) (hr : f.rsv = 0#16)
    (hs : f.symOk = false) : decodeFields f = .error .nonzeroSym := by
  obtain ⟨i, hi, -⟩ := exists_instrOfOpcode h f.sym
  simp [decodeFields, hi, hr, f.not_takesSym_and_sym_ne, hs]

/-- Fields that pass the three checks of 30_encoding.md R87 are those of the command they decode to. -/
theorem exists_decodeFields_ok {f : Fields} (h : f.opc ∈ assignedOpcodes) (hr : f.rsv = 0#16)
    (hs : f.symOk = true) : ∃ i, decodeFields f = .ok i ∧ i.fields = f := by
  obtain ⟨i, hi, hopc, hsym⟩ := exists_instrOfOpcode h f.sym
  refine ⟨i, by simp [decodeFields, hi, hr, f.not_takesSym_and_sym_ne, hs], ?_⟩
  have hsymField : i.symField = f.sym := by
    rw [hsym]
    split
    · rfl
    · next hno =>
      rw [Fields.symOk, eq_false_of_ne_true hno, Bool.false_or, beq_iff_eq] at hs
      exact hs.symm
  rw [Instr.fields, hopc, hsymField, ← hr]

/-- Decoding is the inverse of a command's fields. -/
theorem decodeFields_eq_ok_iff {f : Fields} {i : Instr} : decodeFields f = .ok i ↔ i.fields = f := by
  refine ⟨fun h => ?_, fun h => by subst h; cases i <;> rfl⟩
  by_cases hopc : f.opc ∈ assignedOpcodes
  · by_cases hr : f.rsv = 0#16
    · cases hs : f.symOk with
      | false => simp [decodeFields_of_not_symOk hopc hr hs] at h
      | true =>
        obtain ⟨j, hj, hfields⟩ := exists_decodeFields_ok hopc hr hs
        cases hj.symm.trans h
        exact hfields
    · simp [decodeFields_of_rsv_ne_zero hopc hr] at h
  · simp [decodeFields_of_unassigned hopc] at h

/-! ## The opcode table -/

/-- The fields of a word, put together again (30_encoding.md R81). -/
theorem Fields.toWord_ofWord (w : Word) : (Fields.ofWord w).toWord = w := by
  show w.extractLsb' 16 16 ++ w.extractLsb' 8 8 ++ w.extractLsb' 0 8 = w
  rw [BitVec.append_assoc, BitVec.extractLsb'_append_extractLsb'_eq_extractLsb' (by decide), BitVec.cast_eq,
    BitVec.extractLsb'_append_extractLsb'_eq_extractLsb' (by decide), BitVec.extractLsb'_eq_self]

theorem Fields.ofWord_inj {w v : Word} : Fields.ofWord w = Fields.ofWord v ↔ w = v :=
  ⟨fun h => by rw [← toWord_ofWord w, h, toWord_ofWord], fun h => by rw [h]⟩

/-- A row's selection, field by field. -/
theorem OpcodeRow.selects_iff_fields {r : OpcodeRow} {w : Word} :
    r.selects w = true ↔
      (Fields.ofWord w).opc &&& (Fields.ofWord r.mask).opc = (Fields.ofWord r.pattern).opc ∧
      (Fields.ofWord w).sym &&& (Fields.ofWord r.mask).sym = (Fields.ofWord r.pattern).sym ∧
      (Fields.ofWord w).rsv &&& (Fields.ofWord r.mask).rsv = (Fields.ofWord r.pattern).rsv := by
  rw [OpcodeRow.selects, beq_iff_eq, ← Fields.ofWord_inj]
  simp [Fields.ofWord, BitVec.extractLsb'_and]

/-- The opcode of a row's pattern. -/
def OpcodeRow.opcode (r : OpcodeRow) : BitVec 8 := (Fields.ofWord r.pattern).opc

/-- Every row's pattern is an assigned opcode alone, and its mask leaves out SYM where the opcode takes it. -/
theorem opcodeTable_fields : ∀ r ∈ opcodeTable,
    r.opcode ∈ assignedOpcodes ∧ Fields.ofWord r.pattern = ⟨r.opcode, 0#8, 0#16⟩ ∧
      Fields.ofWord r.mask =
        ⟨BitVec.allOnes 8, if opcodeTakesSym r.opcode then 0#8 else BitVec.allOnes 8, BitVec.allOnes 16⟩ := by
  decide

/-- A word selects a row when its opcode is the row's and it passes checks 2 and 3 of 30_encoding.md R87. -/
theorem OpcodeRow.selects_iff_of_mem_opcodeTable {r : OpcodeRow} (hr : r ∈ opcodeTable) {w : Word} :
    r.selects w = true ↔ (Fields.ofWord w).opc = r.opcode ∧ (Fields.ofWord w).rsv = 0#16 ∧
      (Fields.ofWord w).symOk = true := by
  obtain ⟨-, hpattern, hmask⟩ := opcodeTable_fields r hr
  rw [OpcodeRow.selects_iff_fields, hpattern, hmask]
  simp only [BitVec.and_allOnes]
  refine and_congr_right fun hopc => ?_
  rw [and_comm, Fields.symOk, hopc]
  refine and_congr_right fun _ => ?_
  cases opcodeTakesSym r.opcode with
  | true => simp
  | false => rw [if_neg Bool.false_ne_true, BitVec.and_allOnes, Bool.false_or, beq_iff_eq]

/-- Only a command's own row has its opcode (30_encoding.md R84). -/
theorem opcodeTable_filter_opcode (i : Instr) :
    (opcodeTable.filter (fun r => i.opcode == r.opcode)).map OpcodeRow.mnemonic = [i.mnemonic] := by
  cases i <;> rfl

end Sys2Proof

namespace Sys2Proof.Machine

/-- Settles O2: a row is selected by its opcode and checks 2 and 3, which are what decoding asks of the fields. -/
theorem decodeAgreesWithOpcodeTable : Obligations.DecodeAgreesWithOpcodeTable := by
  unfold Obligations.DecodeAgreesWithOpcodeTable
  intro w
  refine ⟨fun i hi => ?_, fun e he row hrow => ?_⟩
  · have hfields : i.fields = Fields.ofWord w := decodeFields_eq_ok_iff.1 hi
    have hselects : ∀ r ∈ opcodeTable, r.selects w = (i.opcode == r.opcode) := by
      intro r hr
      rw [Bool.eq_iff_iff, OpcodeRow.selects_iff_of_mem_opcodeTable hr, ← hfields, beq_iff_eq]
      exact and_iff_left ⟨rfl, by cases i <;> rfl⟩
    rw [List.filter_congr hselects]
    exact ⟨opcodeTable_filter_opcode i, congrArg Fields.sym hfields⟩
  · rw [Bool.eq_false_iff]
    intro hsel
    obtain ⟨hopc, hrsv, hsym⟩ := (OpcodeRow.selects_iff_of_mem_opcodeTable hrow).1 hsel
    obtain ⟨i, hi, -⟩ := exists_decodeFields_ok (hopc ▸ (opcodeTable_fields row hrow).1) hrsv hsym
    cases hi.symm.trans he

/-! ## The engine's decoding -/

/-- An illegal word completes with IllegalCommand and leaves everything else (30_encoding.md R87). -/
theorem engineTurn_raises_of_decode_error {s : State} {r : IllegalReason} (hb : s.eng = .busy)
    (hd : decode s.lcmd = .error r) :
    ∃ t, engineTurn s = .next t ∧ Raised s t (illegalCommand s.lcmd r) ∧ KeepsTables s t ∧ t.mem = s.mem ∧
      KeepsControl s t := by
  refine ⟨s.raiseError (illegalCommand s.lcmd r), by simp only [engineTurn, hb, hd], ?_,
    s.raiseError_keepsTables _, rfl, ?_⟩
  · exact ⟨rfl, rfl, rfl, rfl, rfl, rfl, rfl⟩
  · exact ⟨rfl, rfl, rfl, rfl, rfl, rfl, rfl, rfl, rfl⟩

/-- Settles O4: one clause of `decodeFields` for each check, and the turn the engine then takes. -/
theorem engineDecodesInOrder : Obligations.EngineDecodesInOrder := by
  unfold Obligations.EngineDecodesInOrder
  intro s hb f illegal
  refine ⟨fun hopc => ?_, fun hopc hrsv => ?_, fun hopc hrsv hset hrd hsym => ?_, fun hopc hrsv hsym => ?_⟩
  · exact engineTurn_raises_of_decode_error hb (decodeFields_of_unassigned hopc)
  · exact engineTurn_raises_of_decode_error hb (decodeFields_of_rsv_ne_zero hopc hrsv)
  · have hbad : f.symOk = false := by
      rw [Bool.eq_false_iff, ne_eq, Fields.symOk_eq_true_iff]
      simp only [hset, hrd, hsym, or_self, not_false_eq_true]
    exact engineTurn_raises_of_decode_error hb (decodeFields_of_not_symOk hopc hrsv hbad)
  · obtain ⟨i, hi, hfields⟩ := exists_decodeFields_ok hopc hrsv (Fields.symOk_eq_true_iff.2 hsym)
    have hd : decode s.lcmd = .ok i := hi
    exact ⟨i, hd, hfields, by simp only [engineTurn, hb, hd]⟩

/-! ## The write of CMD -/

theorem step_of_host {s : State} {op : HostOp} {rest : List Input} (h : s.inputs = .host op :: rest) :
    step s = hostAccess op { s with inputs := rest } := by
  simp only [step, takeNext, h, takeInput]

/-- A host write of CMD is one step, `State.writeCmd` (30_encoding.md R85). -/
theorem step_of_cmdWrite {s : State} {rest : List Input} {w : Word}
    (h : s.inputs = .host (.regWrite s.platform.regBase 32 w) :: rest) :
    step s = .next { State.writeCmd { s with inputs := rest } w with response := .ack } :=
  (step_of_host h).trans (hostAccess_regWrite_aligned { s with inputs := rest } w (off := 0x00) (by decide) rfl)

/-- Settles O7: `State.writeCmd` in each mode. -/
theorem commandWriteIssuesOrIsLost : Obligations.CommandWriteIssuesOrIsLost := by
  unfold Obligations.CommandWriteIssuesOrIsLost
  intro s rest w hin
  rw [step_of_cmdWrite hin]
  exact ⟨fun hidle => by simp only [State.writeCmd, hidle, State.issue],
    fun hbusy => by simp only [State.writeCmd, hbusy]⟩

/-- Settles O6: the state a CMD write issues, field by field. -/
theorem issueLatchesCommandAndOperands : Obligations.IssueLatchesCommandAndOperands := by
  unfold Obligations.IssueLatchesCommandAndOperands
  intro s rest w hidle hin
  refine ⟨_, (commandWriteIssuesOrIsLost s rest w hin).1 hidle, ?_⟩
  simp [State.irq, KeepsTables, KeepsFreq, KeepsTree, KeepsCodes]

end Sys2Proof.Machine

/-! The frequency table commands that read no memory, CLRFREQ and SETFREQ (40_frequency_table.md R100, R101). -/

namespace Sys2Proof.Machine

/-! ## Single entries of FREQ -/

@[simp] theorem freqOf_replicate (f : Word) (sym : Sym) : freqOf (Vector.replicate 256 f) sym = f :=
  Vector.getElem_replicate _

@[simp] theorem freqOf_set_self (freq : Vector Word 256) (sym : Sym) (f : Word) :
    freqOf (freq.set sym.toNat f sym.isLt) sym = f :=
  Vector.getElem_set_self _

theorem freqOf_set_of_ne (freq : Vector Word 256) {sym other : Sym} (h : other ≠ sym) (f : Word) :
    freqOf (freq.set sym.toNat f sym.isLt) other = freqOf freq other :=
  Vector.getElem_set_ne _ _ (mt BitVec.eq_of_toNat_eq h.symm)

/-! ## A completion that wrote the frequency table -/

/-- A command whose only updates are of FREQ and FW completes with its results and keeps everything else
(60_exceptions.md R235). -/
theorem State.complete_frame_of_freq_update (s : State) (freq : Vector Word 256) (fw : Vector Bool 256) (r0 r1 : Word) :
    let t := State.complete { s with freq := freq, fw := fw } r0 r1
    Succeeded s t r0 r1 ∧ KeepsTree s t ∧ KeepsCodes s t ∧ KeepsMemory s t ∧ KeepsControl s t := by
  simp [Succeeded, KeepsTree, KeepsCodes, KeepsMemory, KeepsControl]

/-! ## CLRFREQ and SETFREQ -/

/-- Settles O19: the table written is 0 at every symbol, and the completion touches nothing but FREQ and FW. -/
theorem clrfreqEmptiesTheTable : Obligations.ClrfreqEmptiesTheTable := by
  unfold Obligations.ClrfreqEmptiesTheTable
  refine ⟨by decide, fun s => ?_⟩
  refine ⟨(s.writeFreqTable (Vector.replicate 256 0#32)).complete 0#32 0#32, rfl, fun sym => ?_, fun k => ?_,
    s.complete_frame_of_freq_update _ _ _ _⟩
  · rw [State.complete_freq, State.writeFreqTable_freq, freqOf_replicate]
  · simp only [State.complete_fw, State.writeFreqTable_fw, Fin.getElem_fin, Vector.getElem_replicate]

/-- Settles O20: the entry set reads back LARG0, every other one what it held, and the completion touches nothing but
FREQ and FW. -/
theorem setfreqWritesOneEntry : Obligations.SetfreqWritesOneEntry := by
  unfold Obligations.SetfreqWritesOneEntry
  intro s sym
  refine ⟨rfl, (s.writeFreq sym s.larg0).complete 0#32 0#32, rfl, ?_, ?_, fun other hne => ⟨?_, ?_⟩,
    s.complete_frame_of_freq_update _ _ _ _⟩
  · rw [State.complete_freq, State.writeFreq_freq, freqOf_set_self]
  · simp only [State.complete_fw, State.writeFreq_fw, Vector.getElem_set_self]
  · rw [State.complete_freq, State.writeFreq_freq, freqOf_set_of_ne _ hne]
  · have hidx : sym.toNat ≠ other.toNat := mt BitVec.eq_of_toNat_eq hne.symm
    simp only [State.complete_fw, State.writeFreq_fw, Vector.getElem_set_ne _ _ hidx]

end Sys2Proof.Machine

/-! One merge of BUILD by the keys of its nodes: the two least keys leave the pool, lighter left
(41_tree_builder.md R121, R122). -/

namespace Sys2Proof.Machine

/-! ## Keys in their linear order -/

/-- The key of a node as an element of a linear order: its frequency, then its index (41_tree_builder.md R121). -/
def nodeKey (node : Vector Node 511) (i : NodeIdx) : ℕ ×ₗ NodeIdx := toLex (node[i].freq.toNat, i)

theorem nodeKey_lt_iff {node : Vector Node 511} {i j : NodeIdx} :
    nodeKey node i < nodeKey node j ↔
      node[i].freq < node[j].freq ∨ (node[i].freq = node[j].freq ∧ i < j) := by
  rw [nodeKey, nodeKey, Prod.Lex.toLex_lt_toLex, BitVec.lt_def, BitVec.toNat_eq]

/-- Keys are distinct because indices are. -/
theorem nodeKey_injective (node : Vector Node 511) : Function.Injective (nodeKey node) :=
  fun _ _ h => congrArg (fun key => (ofLex key).2) h

/-- The model's comparison is the linear order's. -/
theorem keyLess_eq_true_iff {node : Vector Node 511} {i j : NodeIdx} :
    keyLess node i j = true ↔ nodeKey node i < nodeKey node j := by
  simp only [nodeKey_lt_iff, keyLess, Bool.or_eq_true, Bool.and_eq_true, decide_eq_true_eq, beq_iff_eq]

/-! ## The least key of a pool -/

theorem nodeKey_le_of_leastKey {node : Vector Node 511} {pool : List NodeIdx} {x z : NodeIdx}
    (h : leastKey node pool = some x) (hz : z ∈ pool) : nodeKey node x ≤ nodeKey node z := by
  induction pool generalizing x with
  | nil => cases hz
  | cons i rest ih =>
    cases hrest : leastKey node rest with
    | none =>
      have hnil : rest = [] := by
        by_contra hne
        obtain ⟨_, _, hsome⟩ := exists_leastKey node hne
        simp [hrest] at hsome
      subst hnil
      obtain rfl := List.mem_singleton.1 hz
      exact (congrArg (nodeKey node) (Option.some.inj h)).ge
    | some j =>
      by_cases hk : nodeKey node j < nodeKey node i
      · obtain rfl : j = x := by simpa [leastKey, hrest, keyLess_eq_true_iff, hk] using h
        rcases List.mem_cons.1 hz with rfl | hz
        · exact hk.le
        · exact ih hrest hz
      · obtain rfl : i = x := by simpa [leastKey, hrest, keyLess_eq_true_iff, hk] using h
        rcases List.mem_cons.1 hz with rfl | hz
        · exact le_rfl
        · exact (not_lt.1 hk).trans (ih hrest hz)

/-- Every other node of the pool has a greater key than the least. -/
theorem nodeKey_lt_of_leastKey {node : Vector Node 511} {pool : List NodeIdx} {x z : NodeIdx}
    (h : leastKey node pool = some x) (hz : z ∈ pool) (hne : z ≠ x) : nodeKey node x < nodeKey node z :=
  (nodeKey_le_of_leastKey h hz).lt_of_ne ((nodeKey_injective node).ne hne.symm)

/-! ## One merge -/

/-- A merge takes the node with the least key from the pool, then the one with the least key of what remains, and makes
them the left and the right child of the next node. -/
theorem Builder.merge_eq_of_leastKey {b : Builder} {x y : NodeIdx} (hx : leastKey b.node b.pool = some x)
    (hy : leastKey b.node (b.pool.erase x) = some y) :
    b.merge = ⟨b.node.setIfInBounds b.next (.internal x y (b.node[x].freq + b.node[y].freq)),
      (b.pool.erase x).erase y ++ [Fin.ofNat 511 b.next], b.next + 1⟩ := by
  simp only [Builder.merge, hx, hy]

/-- The pool of two or more nodes has a least key, and another when that node is out. -/
theorem exists_two_leastKeys (node : Vector Node 511) {pool : List NodeIdx} (h : 2 ≤ pool.length) :
    ∃ x ∈ pool, ∃ y ∈ pool.erase x, leastKey node pool = some x ∧ leastKey node (pool.erase x) = some y := by
  obtain ⟨x, hx, hleast⟩ := exists_leastKey node (pool := pool) (List.ne_nil_of_length_pos (by omega))
  have hpos : 0 < (pool.erase x).length := by
    rw [List.length_erase_of_mem hx]
    omega
  obtain ⟨y, hy, hnext⟩ := exists_leastKey node (List.ne_nil_of_length_pos hpos)
  exact ⟨x, hx, y, hy, hleast, hnext⟩

/-- Settles O26: in the linear order of the keys the first extracted is below the second, and the second below the
rest. -/
theorem mergeTakesTheTwoLeastKeys : Obligations.MergeTakesTheTwoLeastKeys := by
  unfold Obligations.MergeTakesTheTwoLeastKeys
  intro b hnodup hlen hn
  obtain ⟨x, hx, y, hy, hleast, hnext⟩ := exists_two_leastKeys b.node hlen
  obtain ⟨hyx, hypool⟩ := hnodup.mem_erase_iff.1 hy
  have hnew : Fin.ofNat 511 b.next = ⟨b.next, hn⟩ := Fin.ext (Nat.mod_eq_of_lt hn)
  simp only [Builder.merge_eq_of_leastKey hleast hnext, hnew]
  refine ⟨x, y, hx, hypool, nodeKey_lt_iff.1 (nodeKey_lt_of_leastKey hleast hypool hyx), fun z hz hzx hzy => ?_,
    Vector.getElem_setIfInBounds_self hn, fun k hk => ?_, fun z => ?_, ?_, trivial⟩
  · exact nodeKey_lt_iff.1 (nodeKey_lt_of_leastKey hnext (hnodup.mem_erase_iff.2 ⟨hzx, hz⟩) hzy)
  · exact Vector.getElem_setIfInBounds_ne k.isLt hk.symm
  · rw [List.mem_append, List.mem_singleton, (hnodup.erase x).mem_erase_iff, hnodup.mem_erase_iff]
    tauto
  · rw [List.length_append, List.length_singleton, List.length_erase_of_mem hy, List.length_erase_of_mem hx]
    omega

end Sys2Proof.Machine

/-! GENCODES and the code table it installs: an entry reads back its path, and every symbol of no leaf has the empty
entry (42_code_generator.md R141, R142). -/

namespace Sys2Proof.Machine

/-! ## The entry of a path -/

theorem natOfPath_cons (b : Bool) (p : List Bool) : natOfPath (b :: p) = Nat.bit b (natOfPath p) := by
  rw [natOfPath, Nat.bit_val, Nat.add_comm]

theorem testBit_natOfPath (p : List Bool) (k : Nat) : (natOfPath p).testBit k = p.getD k false := by
  induction p generalizing k with
  | nil => exact Nat.zero_testBit k
  | cons b p ih =>
    rw [natOfPath_cons]
    cases k with
    | zero => exact Nat.testBit_bit_zero b _
    | succ k => rw [Nat.testBit_bit_succ, ih, List.getD_cons_succ]

/-- Bit k of the entry of a code is c_k, and 0 past the code (10_state.md R43). -/
theorem CodeEntry.ofPath_bits_getLsbD {p : List Bool} (h : p.length ≤ 255) (k : Nat) :
    (CodeEntry.ofPath p).bits.getLsbD k = p.getD k false := by
  rw [CodeEntry.ofPath, BitVec.getLsbD_ofNat, testBit_natOfPath]
  by_cases hk : k < 255
  · rw [decide_eq_true hk, Bool.true_and]
  · rw [decide_eq_false hk, Bool.false_and, List.getD_eq_default _ _ (by omega)]

theorem CodeEntry.ofPath_path {p : List Bool} (h : p.length ≤ 255) : (CodeEntry.ofPath p).path = p := by
  refine List.ext_getElem ?_ fun k _ hk => ?_
  · rw [CodeEntry.path, List.length_map, List.length_range, CodeEntry.ofPath_len_toNat h]
  · simp only [CodeEntry.path, List.getElem_map, List.getElem_range]
    rw [CodeEntry.ofPath_bits_getLsbD h, List.getD_eq_getElem _ _ hk]

/-! ## The code table of a tree -/

/-- A symbol of no leaf has the empty entry (42_code_generator.md R142). -/
theorem codeOf_codeTable_of_not_mem {t : HuffTree} {sym : Sym} (h : sym ∉ t.symbols) :
    codeOf (codeTable t) sym = ⟨0#8, 0#255⟩ := by
  rw [codeTable, codeOf_recordCodes_of_not_mem (t.codes_symbols ▸ h), codeOf, Vector.getElem_replicate]

theorem HuffTree.exists_mem_codes {t : HuffTree} {sym : Sym} (h : sym ∈ t.symbols) : ∃ p, (sym, p) ∈ t.codes := by
  rw [← t.codes_symbols] at h
  obtain ⟨⟨_, p⟩, hp, rfl⟩ := List.mem_map.1 h
  exact ⟨p, hp⟩

/-- Positions at and past the length of any entry of the table are 0 (10_state.md R43). -/
theorem codeTable_bits_past_len {t : HuffTree} (hd : t.symbols.Nodup) {sym : Sym} {k : Nat}
    (hk : (codeOf (codeTable t) sym).len.toNat ≤ k) : (codeOf (codeTable t) sym).bits.getLsbD k = false := by
  by_cases hsym : sym ∈ t.symbols
  · obtain ⟨p, hp⟩ := HuffTree.exists_mem_codes hsym
    have hlen := (HuffTree.length_of_mem_codes hd hp).2
    rw [codeOf_codeTable hd hp, CodeEntry.ofPath_len_toNat hlen] at hk
    rw [codeOf_codeTable hd hp, CodeEntry.ofPath_bits_getLsbD hlen, List.getD_eq_default _ _ hk]
  · rw [codeOf_codeTable_of_not_mem hsym, BitVec.getLsbD_zero]

/-! ## GENCODES -/

/-- GENCODES over a held tree passes its one check and installs the tree's code table. -/
theorem exec_gencodes_of_holdsTree {s : State} {tr : HuffTree} (hv : s.treeValid = true) (ht : HoldsTree s.arena tr) :
    exec .gencodes s = .next ((s.installCodes (codeTable tr)).complete (s.arena.nleaves.setWidth 32)
      ((maxLen (codeTable tr)).setWidth 32)) := by
  have hchecks : commandChecks .gencodes s = .ok () :=
    firstError_eq_ok_iff.2 (List.forall_mem_singleton.2 (checkTree_eq_ok_iff.2 hv))
  simp only [exec, execGencodes, hchecks, ht.shape]

/-- A command whose only updates are of CODE and CODES_VALID completes with its results and keeps everything else
(60_exceptions.md R235). -/
theorem State.complete_frame_of_installCodes (s : State) (code : Vector CodeEntry 256) (r0 r1 : Word) :
    let t := (s.installCodes code).complete r0 r1
    Succeeded s t r0 r1 ∧ KeepsFreq s t ∧ KeepsTree s t ∧ KeepsMemory s t ∧ KeepsControl s t := by
  simp [Succeeded, KeepsFreq, KeepsTree, KeepsMemory, KeepsControl]

/-- Settles O30: the table installed is `codeTable tr`, read entry by entry for a leaf's symbol and for any other. -/
theorem gencodesGivesEachLeafItsPath : Obligations.GencodesGivesEachLeafItsPath := by
  unfold Obligations.GencodesGivesEachLeafItsPath
  intro s tr hv ht
  refine ⟨_, exec_gencodes_of_holdsTree hv ht, ?_⟩
  simp only [State.complete_code, State.installCodes_code]
  refine ⟨fun sym p hp => ?_, fun sym hsym => ?_, fun sym k hk => codeTable_bits_past_len ht.distinct hk, rfl,
    s.complete_frame_of_installCodes _ _ _⟩
  · rw [codeOf_codeTable ht.distinct hp]
    exact CodeEntry.ofPath_path (HuffTree.length_of_mem_codes ht.distinct hp).2
  · rw [codeOf_codeTable_of_not_mem hsym]

end Sys2Proof.Machine

/-! How a command ends, and what then follows for the host: IRQ, and a host access in the cycle of a completion
(60_exceptions.md R235, R236, R240, R241). -/

namespace Sys2Proof.Machine

/-! ## The two ends of a command -/

/-- What a command may have changed when it comes to its completion: the internal memories, the valid bits, the shared
memory and the count of free values. -/
def WritesTablesAndMemory (s u : State) : Prop :=
  u = { s with
    freq := u.freq, fw := u.fw, arena := u.arena, treeValid := u.treeValid, code := u.code, codesValid := u.codesValid,
    mem := u.mem, freeCount := u.freeCount }

/-- `t` is `s` after a command's writes and one of the two completions (60_exceptions.md R235, R236). -/
def Ends (s t : State) : Prop :=
  ∃ u, WritesTablesAndMemory s u ∧ ((∃ r0 r1, t = u.complete r0 r1) ∨ ∃ e, t = u.raiseError e)

theorem WritesTablesAndMemory.complete_ends {s u : State} (h : WritesTablesAndMemory s u) (r0 r1 : Word) :
    Ends s (u.complete r0 r1) := ⟨u, h, .inl ⟨r0, r1, rfl⟩⟩

theorem WritesTablesAndMemory.raiseError_ends {s u : State} (h : WritesTablesAndMemory s u) (e : CmdError) :
    Ends s (u.raiseError e) := ⟨u, h, .inr ⟨e, rfl⟩⟩

theorem State.raiseError_ends (s : State) (e : CmdError) : Ends s (s.raiseError e) :=
  WritesTablesAndMemory.raiseError_ends (Eq.refl s) e

theorem writesTablesAndMemory_of_writeBytes {base : Addr} {bytes : List Byte} {s t : State} {r : Option CmdError}
    (h : writeBytes base 0 bytes s = (t, r)) : WritesTablesAndMemory s t := by
  rw [writeBytes_changes h]
  rfl

theorem writeAndComplete_ends (base : Addr) (bytes : List Byte) (r0 r1 : Word) (s : State) :
    Ends s (writeAndComplete base bytes r0 r1 s) := by
  rcases writeAndComplete_cases base bytes r0 r1 s with ⟨t, h, ht⟩ | ⟨t, e, h, ht⟩ <;> rw [ht]
  · exact (writesTablesAndMemory_of_writeBytes h).complete_ends r0 r1
  · exact (writesTablesAndMemory_of_writeBytes h).raiseError_ends e

theorem State.writeFreq_writes (s : State) (sym : Sym) (f : Word) : WritesTablesAndMemory s (s.writeFreq sym f) := rfl

theorem State.writeFreqTable_writes (s : State) (table : Vector Word 256) :
    WritesTablesAndMemory s (s.writeFreqTable table) := rfl

theorem State.installTree_writes (s : State) (a : Arena) : WritesTablesAndMemory s (s.installTree a) := rfl

theorem State.dropTree_writes (s : State) : WritesTablesAndMemory s s.dropTree := rfl

theorem State.installCodes_writes (s : State) (table : Vector CodeEntry 256) :
    WritesTablesAndMemory s (s.installCodes table) := rfl

/-- A command that passed its checks and reaches a next state ends in one of the two completions. -/
theorem exec_ends_of_checks_ok {i : Instr} {s t : State} (hc : commandChecks i s = .ok ()) (h : exec i s = .next t) :
    Ends s t := by
  cases i with
  | clrfreq => cases h; exact (s.writeFreqTable_writes _).complete_ends _ _
  | setfreq sym => cases h; exact (s.writeFreq_writes sym _).complete_ends _ _
  | ldfreq =>
    unfold exec execLdfreq at h
    rw [hc] at h
    dsimp only at h
    split at h <;> cases h
    · exact s.raiseError_ends _
    · exact (s.writeFreqTable_writes _).complete_ends _ _
  | build =>
    rcases execBuild_cases h with ⟨e, rfl⟩ | ⟨r0, r1, -, rfl⟩
    · exact s.dropTree_writes.raiseError_ends e
    · exact (s.installTree_writes _).complete_ends r0 r1
  | gencodes =>
    rcases execGencodes_cases h with ⟨e, rfl⟩ | ⟨tr, r0, r1, -, -, rfl⟩
    · exact s.raiseError_ends e
    · exact (s.installCodes_writes _).complete_ends r0 r1
  | rdcode sym =>
    simp only [exec, execRdcode, hc] at h
    cases h; exact writeAndComplete_ends ..
  | encode =>
    simp only [exec, execEncode, hc] at h
    split at h
    · cases h; exact s.raiseError_ends _
    · split at h <;> cases h
      · exact s.raiseError_ends _
      · exact writeAndComplete_ends ..
  | decode =>
    simp only [exec, execDecode, hc] at h
    split at h
    · cases h
    · split at h <;> cases h
      · exact s.raiseError_ends _
      · exact writeAndComplete_ends ..
  | save =>
    simp only [exec, execSave, hc] at h
    split at h <;> cases h
    exact writeAndComplete_ends ..
  | load =>
    rcases execLoad_cases h with ⟨e, rfl⟩ | ⟨ld, r0, r1, -, rfl⟩
    · exact s.dropTree_writes.raiseError_ends e
    · exact (s.installTree_writes _).complete_ends r0 r1

/-- Every command that reaches a next state ends in one of the two completions (60_exceptions.md R235, R236). -/
theorem exec_ends {i : Instr} {s t : State} (h : exec i s = .next t) : Ends s t := by
  cases hc : commandChecks i s with
  | ok u => exact exec_ends_of_checks_ok hc h
  | error e =>
    rw [exec_of_checks_error hc] at h
    cases h
    split
    · exact s.dropTree_writes.raiseError_ends e
    · exact s.raiseError_ends e

/-- After either completion the engine is idle with DONE = 1; CTRL, CMDLOST, the arguments and what the host heard are
as before (60_exceptions.md R235, R236). -/
theorem Ends.idle_done_keepsControl {s t : State} (h : Ends s t) :
    t.eng = .idle ∧ t.done = true ∧ KeepsControl s t := by
  obtain ⟨u, hu, ⟨r0, r1, rfl⟩ | ⟨e, rfl⟩⟩ := h <;> rw [hu] <;> simp [KeepsControl]

/-- While BUSY, an engine's turn that reaches a next state is the end of the latched command, legal or not. -/
theorem engineTurn_ends {s t : State} (h : engineTurn s = .next t) (hb : s.eng = .busy) : Ends s t := by
  rcases engineTurn_cases s with ⟨hi, -⟩ | ⟨-, r, -, he⟩ | ⟨-, i, -, ⟨-, he⟩ | ⟨-, he⟩⟩
  · cases hb.symm.trans hi
  · cases he.symm.trans h
    exact s.raiseError_ends _
  · cases he.symm.trans h
  · exact exec_ends (he.symm.trans h)

/-! ## IRQ -/

theorem State.irq_eq_false_of_done {s : State} (h : s.done = false) : s.irq = false := by
  rw [State.irq, h, Bool.and_false]

/-- Settles O10: IRQ is read from IE and DONE, and `exec_ends` gives both after a completion. -/
theorem interruptFollowsEnableAndDone : Obligations.InterruptFollowsEnableAndDone := by
  unfold Obligations.InterruptFollowsEnableAndDone
  refine ⟨fun s => rfl, fun i s t h => ?_, fun s w => ?_, fun s w hw => ?_, fun s w => rfl, rfl⟩
  · obtain ⟨-, hdone, hie, -⟩ := (exec_ends h).idle_done_keepsControl
    rw [State.irq, hdone, hie, Bool.and_true]
  · exact State.irq_eq_false_of_done (s.issue_done w)
  · have hclear : (s.regWrite 0x04 w).done = (s.done && !w.getLsbD 1) := s.writeStatus_done w
    exact State.irq_eq_false_of_done (by rw [hclear, hw, Bool.not_true, Bool.and_false])

/-! ## The cycle of a completion -/

/-- While BUSY, the engine takes its turn on the state the host access leaves (60_exceptions.md R241). -/
theorem step_of_hostWithEngine {s t : State} {op : HostOp} {rest : List Input}
    (hin : s.inputs = .hostWithEngine op :: rest) (hb : s.eng = .busy)
    (h : hostAccess op { s with inputs := rest } = .next t) : step s = engineTurn t := by
  have hstep : step s = hostThenEngine op { s with inputs := rest } := by
    simp only [step, takeNext, hin, takeInput]
  rw [hstep, hostThenEngine, h]
  simp only [hb]

/-- While BUSY, a host access that leaves the engine BUSY is followed by the completion of the command. -/
theorem step_ends_of_hostWithEngine {s t u : State} {op : HostOp} {rest : List Input}
    (hin : s.inputs = .hostWithEngine op :: rest) (hb : s.eng = .busy) (ht : step s = .next t)
    (h : hostAccess op { s with inputs := rest } = .next u) (hu : u.eng = .busy) : Ends u t :=
  engineTurn_ends ((step_of_hostWithEngine hin hb h).symm.trans ht) hu

theorem State.writeCmd_of_busy {s : State} (hb : s.eng = .busy) (w : Word) :
    s.writeCmd w = { s with cmdLost := true } := by
  simp only [State.writeCmd, hb]

/-- While BUSY, a host write of CMD sets CMDLOST and is dropped (30_encoding.md R85). -/
theorem hostAccess_cmdWrite_of_busy {s : State} (hb : s.eng = .busy) (w : Word) :
    hostAccess (.regWrite s.platform.regBase 32 w) s = .next { s with cmdLost := true, response := .ack } := by
  have haccess := hostAccess_regWrite_aligned s w (off := 0x00) (by decide) rfl
  rwa [show s.regWrite 0x00 w = s.writeCmd w from rfl, State.writeCmd_of_busy hb] at haccess

/-- Settles O15: the engine's turn after the access ends the command, and keeps CMDLOST and what the host heard. -/
theorem hostComesFirstInTheCompletionCycle : Obligations.HostComesFirstInTheCompletionCycle := by
  unfold Obligations.HostComesFirstInTheCompletionCycle
  intro s rest hb
  refine ⟨fun op t hin h => step_of_hostWithEngine hin hb h, fun w hin => ?_, fun w t hin ht => ?_, fun t hin ht => ?_⟩
  · have haccess := hostAccess_cmdWrite_of_busy (s := { s with inputs := rest }) hb w
    refine ⟨step_of_hostWithEngine hin hb haccess, fun t ht => ?_⟩
    obtain ⟨hidle, -, -, hlost, -⟩ := (step_ends_of_hostWithEngine hin hb ht haccess hb).idle_done_keepsControl
    exact ⟨hlost, hidle⟩
  · have haccess := hostAccess_regWrite_aligned { s with inputs := rest } w (off := 0x04) (by decide) rfl
    obtain ⟨-, hdone, -⟩ := (step_ends_of_hostWithEngine hin hb ht haccess hb).idle_done_keepsControl
    exact hdone
  · have haccess := hostAccess_regRead_aligned { s with inputs := rest } (off := 0x04) (by decide) rfl
    obtain ⟨hidle, -, hkeeps⟩ := (step_ends_of_hostWithEngine hin hb ht haccess hb).idle_done_keepsControl
    obtain ⟨-, -, -, -, -, -, -, -, hresponse⟩ := hkeeps
    refine ⟨_, hresponse, ?_, hidle⟩
    exact (State.statusWord_flags { s with inputs := rest }).1.trans (beq_iff_eq.2 hb)

end Sys2Proof.Machine

/-! Reset: every register takes its reset value, and the memory keeps every byte outside the abandoned destination
(10_state.md R48, 70_reset_and_hazards.md R260, R261). -/

namespace Sys2Proof.Machine

/-! ## The reset event as a step -/

/-- A reset at the head of the inputs is one step in either mode. -/
theorem step_of_reset {s : State} {rest : List Input} (hin : s.inputs = .reset :: rest) :
    step s = .next (resetEvent { s with inputs := rest }) := by
  simp only [step, takeNext, hin, takeInput]

theorem State.reset_statusWord : State.reset.statusWord = 0#32 := by decide

theorem State.reset_infoWord : State.reset.infoWord = 0#32 := by decide

/-- STATUS and INFO after the reset event are those of `State.reset`, whatever ran before (10_state.md R48). -/
theorem resetEvent_status_info (s : State) : (resetEvent s).statusWord = 0#32 ∧ (resetEvent s).infoWord = 0#32 :=
  ⟨State.reset_statusWord, State.reset_infoWord⟩

/-! ## The memory after reset -/

/-- The abandoned region is the destination of the running command, and holds no address when no legal command runs. -/
theorem State.abandonedRegion_cases (s : State) :
    (∃ i, s.eng = .busy ∧ decode s.lcmd = .ok i ∧ s.abandonedRegion = destRegion i s) ∨ s.abandonedRegion = ⟨0, 0⟩ := by
  unfold State.abandonedRegion State.runningRegions State.latchedRegions
  cases s.eng with
  | idle => exact .inr rfl
  | busy =>
    cases decode s.lcmd with
    | error r => exact .inr rfl
    | ok i => exact .inl ⟨i, rfl, rfl, rfl⟩

/-- An address outside the destination of the running command, if one runs, is not abandoned. -/
theorem State.abandonedRegion_contains_eq_false {s : State} {a : Addr}
    (h : ∀ i, s.eng = .busy → decode s.lcmd = .ok i → (destRegion i s).contains a = false) :
    s.abandonedRegion.contains a = false := by
  rcases s.abandonedRegion_cases with ⟨i, hb, hd, hr⟩ | hr <;> rw [hr]
  · exact h i hb hd
  · simp [Region.contains]

/-- Taking an input leaves the abandoned region as it is: the latched state alone gives it. -/
theorem State.abandonedRegion_with_inputs (s : State) (rest : List Input) :
    ({ s with inputs := rest } : State).abandonedRegion = s.abandonedRegion := by
  have hlatched : ({ s with inputs := rest } : State).latchedRegions = s.latchedRegions :=
    State.latchedRegions_congr rfl rfl rfl rfl rfl
  simp only [State.abandonedRegion, State.runningRegions, hlatched]

/-- Reset changes no byte outside the abandoned region (70_reset_and_hazards.md R261). -/
theorem resetEvent_read_of_not_abandoned {s : State} {a : Addr} (h : s.abandonedRegion.contains a = false) :
    (resetEvent s).mem.read a = s.mem.read a := by
  rw [← Bool.not_eq_true, Region.contains_iff] at h
  exact readKey_freeBytes _ _ _ _ (by omega)

/-- Settles O17: the step is `resetEvent`, whose registers are those of `State.reset`, and whose memory differs only
inside the abandoned region. -/
theorem resetAbandonsTheCommand : Obligations.ResetAbandonsTheCommand := by
  unfold Obligations.ResetAbandonsTheCommand
  intro s rest hin
  obtain ⟨hstatus, hinfo⟩ := resetEvent_status_info { s with inputs := rest }
  refine ⟨resetEvent { s with inputs := rest }, step_of_reset hin, rfl, hstatus, hinfo, rfl, rfl, rfl, rfl, rfl, rfl, rfl,
    rfl, rfl, rfl, rfl, fun a ha => ?_⟩
  refine resetEvent_read_of_not_abandoned (s := { s with inputs := rest }) ?_
  rw [State.abandonedRegion_with_inputs]
  exact State.abandonedRegion_contains_eq_false ha

end Sys2Proof.Machine

/-! Command words against their commands, and the step that runs a latched word (30_encoding.md R81, R84, R87, R88). -/

namespace Sys2Proof

/-- The fields read back from the word they make (30_encoding.md R81). -/
theorem Fields.ofWord_toWord (f : Fields) : Fields.ofWord f.toWord = f := by
  obtain ⟨opc, sym, rsv⟩ := f
  simp only [Fields.ofWord, Fields.toWord, Fields.mk.injEq]
  refine ⟨?_, ?_, ?_⟩
  · rw [BitVec.extractLsb'_append_eq_of_add_le (by decide), BitVec.extractLsb'_eq_self]
  · rw [BitVec.extractLsb'_append_eq_of_le (by decide), BitVec.extractLsb'_append_eq_of_add_le (by decide),
      BitVec.extractLsb'_eq_self]
  · rw [BitVec.extractLsb'_append_eq_of_le (by decide), BitVec.extractLsb'_append_eq_of_le (by decide),
      BitVec.extractLsb'_eq_self]

/-- Fields are a word's exactly when they make that word. -/
theorem Fields.eq_ofWord_iff {f : Fields} {w : Word} : f = Fields.ofWord w ↔ f.toWord = w :=
  ⟨fun h => by rw [h, Fields.toWord_ofWord], fun h => by rw [← h, Fields.ofWord_toWord]⟩

/-- A word decodes to a command exactly when it is that command's word. -/
theorem decode_eq_ok_iff {w : Word} {i : Instr} : decode w = .ok i ↔ encode i = w :=
  decodeFields_eq_ok_iff.trans Fields.eq_ofWord_iff

theorem decode_encode (i : Instr) : decode (encode i) = .ok i := decode_eq_ok_iff.2 rfl

/-- Settles O1: decoding is the inverse of a command's fields, and the fields of a word are the inverse of the word they
make. -/
theorem decodeInvertsEncode : Obligations.DecodeInvertsEncode := by
  unfold Obligations.DecodeInvertsEncode
  exact fun w i => decode_eq_ok_iff

/-- Settles O3: the decoder evaluated on the words of the table and on the corner cases. -/
theorem tableWordsDecode : Obligations.TableWordsDecode := by
  unfold Obligations.TableWordsDecode
  exact ⟨rfl, rfl, rfl, rfl, rfl, rfl, rfl, rfl, rfl, rfl⟩

end Sys2Proof

/-! What every input of a step keeps: the invariants by one principle over the engine's turn, the host's accesses, reset
and a change of the bus errors (10_state.md R27 to R44). -/

namespace Sys2Proof.Machine

/-! ## Host accesses -/

/-- What a write of a register can leave: an issued command, other control and argument registers, or nothing new. -/
theorem State.regWrite_cases (s : State) (off : Nat) (w : Word) :
    s.regWrite off w = s.issue w ∨
      ∃ lost done ie a0 a1 a2 a3, (s.eng = .busy → s.done = false → done = false) ∧
        s.regWrite off w =
          { s with cmdLost := lost, done := done, ie := ie, arg0 := a0, arg1 := a1, arg2 := a2, arg3 := a3 } := by
  have same : ∃ lost done ie a0 a1 a2 a3, (s.eng = .busy → s.done = false → done = false) ∧
      s = { s with cmdLost := lost, done := done, ie := ie, arg0 := a0, arg1 := a1, arg2 := a2, arg3 := a3 } :=
    ⟨_, _, _, _, _, _, _, fun _ h => h, rfl⟩
  unfold State.regWrite
  split
  · unfold State.writeCmd
    split
    · exact .inl rfl
    · exact .inr ⟨true, _, _, _, _, _, _, fun _ h => h, rfl⟩
  split
  · exact .inr ⟨_, _, _, _, _, _, _, fun _ h => by rw [h, Bool.false_and], rfl⟩
  repeat
    split
    · exact .inr ⟨_, _, _, _, _, _, _, fun _ h => h, rfl⟩
  exact .inr same


/-- What a host access can leave: only what the host heard and observed, a register write, or a byte written. -/
theorem hostAccess_cases {op : HostOp} {s t : State} (h : hostAccess op s = .next t) :
    ∃ r, (∃ u, t = { s with unobserved := u, response := r }) ∨
      (∃ off w, t = { s.regWrite off w with response := r }) ∨
      ∃ a v, t = { s with mem := s.mem.write a v, response := r } := by
  cases op with
  | regRead addr width =>
    simp only [hostAccess] at h
    split at h <;> cases h <;> exact ⟨_, .inl ⟨_, rfl⟩⟩
  | regWrite addr width w =>
    simp only [hostAccess] at h
    split at h <;> cases h
    · exact ⟨_, .inr (.inl ⟨_, _, rfl⟩)⟩
    · exact ⟨_, .inl ⟨_, rfl⟩⟩
    · exact ⟨_, .inl ⟨_, rfl⟩⟩
  | memRead a =>
    simp only [hostAccess] at h
    split at h
    · cases h
    · split at h <;> cases h
      exact ⟨_, .inl ⟨_, rfl⟩⟩
  | memWrite a v =>
    simp only [hostAccess] at h
    split at h
    · cases h
    · split at h <;> cases h
      exact ⟨_, .inr (.inr ⟨_, _, rfl⟩)⟩
  | irqLook =>
    cases h
    exact ⟨_, .inl ⟨_, rfl⟩⟩

/-! ## The principle -/

/-- Every part of a step keeps `P`: what an input takes or changes beside the engine, and the end of a command. -/
structure KeptByParts (P : State → Prop) : Prop where
  inputs : ∀ (s : State) (rest : List Input), P s → P { s with inputs := rest }
  heard : ∀ (s : State) (u : List CommandRegions) (r : HostResponse), P s → P { s with unobserved := u, response := r }
  regWrite : ∀ (s : State) (off : Nat) (w : Word), P s → P (s.regWrite off w)
  memWrite : ∀ (s : State) (a : Addr) (v : Byte), P s → P { s with mem := s.mem.write a v }
  busErrors : ∀ (s : State) (b : List ErrorRegion), P s → P { s with platform := { s.platform with busErrors := b } }
  reset : ∀ s : State, P s → P (resetEvent s)
  illegal : ∀ (s : State) (r : IllegalReason), s.eng = .busy → P s → P (s.raiseError (illegalCommand s.lcmd r))
  exec : ∀ (i : Instr) (s t : State), s.eng = .busy → exec i s = .next t → P s → P t

section KeptByParts

variable {P : State → Prop}

theorem KeptByParts.hostAccess (hP : KeptByParts P) {op : HostOp} {s t : State} (h : hostAccess op s = .next t)
    (hs : P s) : P t := by
  obtain ⟨r, ⟨u, rfl⟩ | ⟨off, w, rfl⟩ | ⟨a, v, rfl⟩⟩ := hostAccess_cases h
  · exact hP.heard s u r hs
  · exact hP.heard _ (s.regWrite off w).unobserved r (hP.regWrite s off w hs)
  · exact hP.heard _ s.unobserved r (hP.memWrite s a v hs)

theorem KeptByParts.engineTurn (hP : KeptByParts P) {s t : State} (h : engineTurn s = .next t) (hs : P s) : P t := by
  rcases engineTurn_cases s with ⟨-, he⟩ | ⟨hb, r, -, he⟩ | ⟨hb, i, -, ⟨-, he⟩ | ⟨-, he⟩⟩
  · cases he.symm.trans h
    exact hs
  · cases he.symm.trans h
    exact hP.illegal s r hb hs
  · cases he.symm.trans h
  · exact hP.exec i s t hb (he.symm.trans h) hs

theorem KeptByParts.takeInput (hP : KeptByParts P) {i : Input} {s t : State} (h : takeInput i s = .next t) (hs : P s) :
    P t := by
  cases i with
  | engine => exact hP.engineTurn h hs
  | host op => exact hP.hostAccess h hs
  | hostWithEngine op =>
    simp only [Machine.takeInput, hostThenEngine] at h
    split at h
    · rename_i u hu
      have hPu : P u := hP.hostAccess hu hs
      split at h
      · cases h
        exact hPu
      · exact hP.engineTurn h hPu
    · cases h
    · cases h
  | reset =>
    cases h
    exact hP.reset s hs
  | setBusErrors regions =>
    simp only [Machine.takeInput] at h
    split at h <;> cases h
    exact hP.busErrors s regions hs

/-- What every part keeps, every step keeps. -/
theorem KeptByParts.step (hP : KeptByParts P) {s t : State} (hs : P s) (h : step s = .next t) : P t := by
  rcases step_cases s with ⟨-, he⟩ | ⟨i, rest, -, he⟩
  · exact hP.engineTurn (he.symm.trans h) hs
  · exact hP.takeInput (he.symm.trans h) (hP.inputs s rest hs)

end KeptByParts

/-! ## The tree and the codes -/

/-- No register write touches an internal memory or a valid bit. -/
theorem State.regWrite_keepsTables (s : State) (off : Nat) (w : Word) : KeepsTables s (s.regWrite off w) := by
  rcases s.regWrite_cases off w with h | ⟨lost, done, ie, a0, a1, a2, a3, -, h⟩ <;> rw [h] <;>
    exact ⟨⟨rfl, rfl⟩, ⟨rfl, rfl⟩, rfl, rfl⟩

theorem treeLegal_keptByParts : KeptByParts TreeLegal where
  inputs _ _ hs := hs
  heard _ _ _ hs := hs
  regWrite s off w hs := hs.of_keepsTree (s.regWrite_keepsTables off w).2.1
  memWrite _ _ _ hs := hs
  busErrors _ _ hs := hs
  reset _ _ hv := Bool.noConfusion hv
  illegal _ _ _ hs := hs
  exec _ _ _ _ h hs := exec_keeps_treeLegal h hs

theorem treeAndCodesLegal_keptByParts : KeptByParts fun s => TreeLegal s ∧ CodesLegal s where
  inputs _ _ hs := hs
  heard _ _ _ hs := hs
  regWrite s off w hs := ⟨treeLegal_keptByParts.regWrite s off w hs.1, hs.2.of_keeps (s.regWrite_keepsTables off w).2⟩
  memWrite _ _ _ hs := hs
  busErrors _ _ hs := hs
  reset s hs := ⟨treeLegal_keptByParts.reset s hs.1, fun hv => Bool.noConfusion hv⟩
  illegal _ _ _ hs := hs
  exec _ _ _ _ h hs := ⟨exec_keeps_treeLegal h hs.1, exec_keeps_codesLegal h hs.1 hs.2⟩

/-- Settles O56: BUILD and LOAD leave a tree, and no other part of a step writes the arena. -/
theorem stepKeepsTheTreeSound : Obligations.StepKeepsTheTreeSound := by
  unfold Obligations.StepKeepsTheTreeSound
  exact fun _ _ => treeLegal_keptByParts.step

/-- Settles O57: GENCODES makes the table of the current tree, and BUILD and LOAD clear CODES_VALID. -/
theorem stepKeepsTheCodesCurrent : Obligations.StepKeepsTheCodesCurrent := by
  unfold Obligations.StepKeepsTheCodesCurrent
  exact fun _ _ ht hc h => (treeAndCodesLegal_keptByParts.step ⟨ht, hc⟩ h).2

/-! ## The status, result and error registers -/

/-- The status invariant reads these registers alone; DONE may be cleared. -/
theorem StatusLegal.of_eq {s t : State} (h : StatusLegal s) (heng : t.eng = s.eng)
    (hdone : s.eng = .busy → s.done = false → t.done = false) (herr : t.err = s.err) (h0 : t.result0 = s.result0)
    (h1 : t.result1 = s.result1) (hpos : t.errPos = s.errPos) (hdata : t.errData = s.errData) : StatusLegal t := by
  obtain ⟨hbusy, hassigned, hno, hdetail, hwidth⟩ := h
  refine ⟨?_, ?_, ?_, ?_, ?_⟩
  · rw [heng, herr, h0, h1, hpos, hdata]
    exact fun hb => ⟨hdone hb (hbusy hb).1, (hbusy hb).2⟩
  · rwa [herr]
  · rwa [herr, h0, h1]
  · rwa [herr, hpos, hdata]
  · rwa [hdata]

/-- A register state with no result, no error and no detail is consistent. -/
theorem statusLegal_of_clear {s : State} (hd : s.eng = .busy → s.done = false) (he : s.err = 0#4) (h0 : s.result0 = 0#32)
    (h1 : s.result1 = 0#32) (hpos : s.errPos = 0#32) (hdata : s.errData = 0#32) : StatusLegal s where
  busyClear hb := ⟨hd hb, he, h0, h1, hpos, hdata⟩
  errAssigned := by rw [he]; decide
  errorNoResult hne := absurd he hne
  successNoDetail _ := ⟨hpos, hdata⟩
  detailWidth := by rw [hdata]; decide

theorem ErrorKind.code_le (k : ErrorKind) : k.code ≤ 11#4 := by
  cases k <;> decide

/-- Either completion of a command that ran in a consistent state leaves one. -/
theorem StatusLegal.of_ends {s t : State} (hs : StatusLegal s) (hb : s.eng = .busy) (h : Ends s t) : StatusLegal t := by
  obtain ⟨-, -, h0, h1, hpos, hdata⟩ := hs.busyClear hb
  obtain ⟨u, hu, ⟨r0, r1, rfl⟩ | ⟨e, rfl⟩⟩ := h
  · have hupos : u.errPos = 0#32 := by rw [hu, hpos]
    have hudata : u.errData = 0#32 := by rw [hu, hdata]
    refine ⟨fun h => ?_, by simp, fun h => absurd rfl h, fun _ => ⟨hupos, hudata⟩, ?_⟩
    · cases h
    · rw [State.complete_errData, hudata]
      decide
  · have hu0 : u.result0 = 0#32 := by rw [hu, h0]
    have hu1 : u.result1 = 0#32 := by rw [hu, h1]
    refine ⟨fun h => ?_, e.kind.code_le, fun _ => ⟨hu0, hu1⟩, fun h => absurd h e.kind.code_ne_zero, ?_⟩
    · cases h
    · rw [State.raiseError_errData, BitVec.toNat_setWidth_of_le (by decide)]
      exact e.data.isLt

theorem statusLegal_keptByParts : KeptByParts StatusLegal where
  inputs _ _ hs := hs.of_eq rfl (fun _ h => h) rfl rfl rfl rfl rfl
  heard _ _ _ hs := hs.of_eq rfl (fun _ h => h) rfl rfl rfl rfl rfl
  regWrite s off w hs := by
    rcases s.regWrite_cases off w with h | ⟨lost, done, ie, a0, a1, a2, a3, hdone, h⟩ <;> rw [h]
    · exact statusLegal_of_clear (fun _ => rfl) rfl rfl rfl rfl rfl
    · exact hs.of_eq rfl hdone rfl rfl rfl rfl rfl
  memWrite _ _ _ hs := hs.of_eq rfl (fun _ h => h) rfl rfl rfl rfl rfl
  busErrors _ _ hs := hs.of_eq rfl (fun _ h => h) rfl rfl rfl rfl rfl
  reset _ _ := statusLegal_of_clear (fun _ => rfl) rfl rfl rfl rfl rfl
  illegal s _ hb hs := hs.of_ends hb (s.raiseError_ends _)
  exec _ _ _ hb h hs := hs.of_ends hb (exec_ends h)

/-- Settles O55: issue clears the registers, and each completion writes its half of them. -/
theorem stepKeepsStatusConsistent : Obligations.StepKeepsStatusConsistent := by
  unfold Obligations.StepKeepsStatusConsistent
  exact fun _ _ => statusLegal_keptByParts.step

/-- Settles O58: after reset the memory is empty, the registers are clear and neither valid bit is set. -/
theorem resetIsLegal : Obligations.ResetIsLegal := by
  unfold Obligations.ResetIsLegal
  intro p inputs
  exact ⟨reset_memory_wf, statusLegal_of_clear (fun _ => rfl) rfl rfl rfl rfl rfl, fun hv => Bool.noConfusion hv,
    fun hv => Bool.noConfusion hv⟩

/-- Settles O60: a tree of distinct symbols has at most 256 leaves, and one more leaf than its depth at least. -/
theorem treeDepthIsBounded : Obligations.TreeDepthIsBounded := by
  unfold Obligations.TreeDepthIsBounded
  intro a t h
  obtain ⟨hlow, hhigh⟩ := h.nleaves_bounds
  have hdepth := t.depth_lt_symbols_length
  have hcount := h.count
  omega

end Sys2Proof.Machine

/-! Bits in a byte and the BitPacker: its stream lays the bits out in order, zero padded (00_scope.md R10,
44_encoder_packer.md R190, R192). -/

namespace Sys2Proof.Machine

/-- A bit placed at stream position `j` is the bit of that position and of no other. -/
theorem positionBit_bitAtPosition (b : Bool) {j m : Nat} (hj : j < 8) (hm : m < 8) :
    positionBit (bitAtPosition b j) m = (decide (m = j) && b) := by
  simp only [positionBit, bitAtPosition, BitVec.getLsbD_shiftLeft, BitVec.getLsbD_setWidth, BitVec.getLsbD_ofBool]
  by_cases h : m = j
  · subst h
    simp
    omega
  · have hne : decide (7 - m < 7 - j) = true ∨ decide (7 - m - (7 - j) = 0) = false := by
      simp only [decide_eq_true_eq, decide_eq_false_iff_not]
      omega
    rcases hne with hne | hne <;> simp [h, hne]

/-- The packer holds the bits `bits`: whole bytes in `out`, the rest in `acc`, each bit at its place, 0 past them. -/
structure Packer.Holds (p : Packer) (bits : List Bool) : Prop where
  fill : p.fill = bits.length % 8
  whole : p.out.length = bits.length / 8
  bit : ∀ k, positionBit ((p.out ++ [p.acc]).getD (k / 8) 0#8) (k % 8) = bits.getD k false

theorem Packer.holds_nil : Packer.Holds ⟨0#8, 0, []⟩ [] where
  fill := rfl
  whole := rfl
  bit k := by cases h : k / 8 <;> simp [positionBit]

/-- Placing a bit in the accumulator puts it after the bits held. -/
theorem Packer.Holds.positionBit_place {p : Packer} {bits : List Bool} (h : p.Holds bits) (b : Bool) (k : Nat) :
    positionBit ((p.out ++ [p.acc ||| bitAtPosition b p.fill]).getD (k / 8) 0#8) (k % 8) =
      (bits ++ [b]).getD k false := by
  have hbit := h.bit k
  rcases lt_trichotomy (k / 8) p.out.length with hlt | heq | hgt
  · have hk : k < bits.length := by have := h.whole; omega
    rw [List.getD_append _ _ _ _ hlt] at hbit ⊢
    rw [hbit, List.getD_append _ _ _ _ hk]
  · have hk : decide (k % 8 = p.fill) = decide (k = bits.length) := by
      have := h.whole
      have := h.fill
      exact decide_eq_decide.2 (by omega)
    rw [heq, List.getD_append_right _ _ _ _ le_rfl, Nat.sub_self, List.getD_cons_zero] at hbit ⊢
    have hsplit : positionBit (p.acc ||| bitAtPosition b p.fill) (k % 8) =
        (positionBit p.acc (k % 8) || positionBit (bitAtPosition b p.fill) (k % 8)) := BitVec.getLsbD_or
    rw [hsplit, hbit, positionBit_bitAtPosition b (by rw [h.fill]; omega) (Nat.mod_lt _ (by decide)), hk]
    rcases lt_trichotomy k bits.length with hlt | rfl | hgt
    · rw [List.getD_append _ _ _ _ hlt, decide_eq_false hlt.ne, Bool.false_and, Bool.or_false]
    · simp
    · rw [List.getD_eq_default _ _ hgt.le, List.getD_eq_default _ _ (by simpa using hgt), decide_eq_false hgt.ne']
      rfl
  · have hk : bits.length < k := by have := h.whole; omega
    rw [List.getD_eq_default _ _ (by simpa using hgt), List.getD_eq_default _ _ (by simpa using hk)]
    simp [positionBit]

/-- A 0 byte more after the last changes no bit. -/
theorem getD_append_zero_byte (l : List Byte) (k : Nat) : (l ++ [0#8]).getD k 0#8 = l.getD k 0#8 := by
  rcases lt_trichotomy k l.length with hlt | rfl | hgt
  · exact List.getD_append _ _ _ _ hlt
  · simp
  · rw [List.getD_eq_default _ _ (by simpa using hgt), List.getD_eq_default _ _ hgt.le]

theorem Packer.Holds.put {p : Packer} {bits : List Bool} (h : p.Holds bits) (b : Bool) :
    (p.put b).Holds (bits ++ [b]) := by
  have hfill := h.fill
  have hwhole := h.whole
  have hplace := h.positionBit_place b
  unfold Packer.put
  split
  · refine ⟨?_, ?_, fun k => ?_⟩
    · simp only [List.length_append, List.length_singleton]
      omega
    · simp only [List.length_append, List.length_singleton]
      omega
    · rw [getD_append_zero_byte, hplace]
  · refine ⟨?_, ?_, hplace⟩
    · simp only [List.length_append, List.length_singleton]
      omega
    · simp only [List.length_append, List.length_singleton]
      omega

theorem packer_holds (bits : List Bool) : (bits.foldl Packer.put ⟨0#8, 0, []⟩).Holds bits := by
  induction bits using List.reverseRecOn with
  | nil => exact Packer.holds_nil
  | append_singleton bits b ih =>
    rw [List.foldl_append]
    exact ih.put b

/-- The stream of n bits has ceil8(n) bytes. -/
theorem packBits_length (bits : List Bool) : (packBits bits).length = ceil8 bits.length := by
  obtain ⟨hfill, hwhole, -⟩ := packer_holds bits
  unfold packBits Packer.flush ceil8
  split
  · rw [List.length_append, List.length_singleton]
    omega
  · omega

/-- Bit k of the stream is b_k, and 0 past the last. -/
theorem positionBit_packBits (bits : List Bool) {k : Nat} (hk : k < 8 * (packBits bits).length) :
    positionBit ((packBits bits).getD (k / 8) 0#8) (k % 8) = bits.getD k false := by
  have h := packer_holds bits
  rw [packBits_length] at hk
  rw [← h.bit k]
  congr 1
  unfold packBits Packer.flush
  split
  · rfl
  · have hlt : k / 8 < (bits.foldl Packer.put ⟨0#8, 0, []⟩).out.length := by
      have := h.fill
      have := h.whole
      unfold ceil8 at hk
      omega
    rw [List.getD_append _ _ _ _ hlt]

/-- Settles O40: the packer's bytes and bits, from what it holds after its last bit. -/
theorem packerLaysOutBitsInOrder : Obligations.PackerLaysOutBitsInOrder := by
  unfold Obligations.PackerLaysOutBitsInOrder
  exact fun bits => ⟨packBits_length bits, fun k => positionBit_packBits bits⟩

end Sys2Proof.Machine

/-! The serialized tree: its length, and that no serialization goes on from another (43_tree_codec.md R160). -/

namespace Sys2Proof.Machine

theorem HuffTree.serialize_length (t : HuffTree) : t.serialize.length = 3 * t.symbols.length - 1 := by
  induction t with
  | leaf sym => rfl
  | node l r ihl ihr =>
    have := l.symbols_length_pos
    have := r.symbols_length_pos
    simp only [HuffTree.serialize_node, HuffTree.symbols_node, List.length_cons, List.length_append]
    omega

/-- A stream begins with at most one serialized tree: the tag tells the kind of its root. -/
theorem HuffTree.serialize_append_inj {t u : HuffTree} {x y : List Byte} (h : t.serialize ++ x = u.serialize ++ y) :
    t = u ∧ x = y := by
  induction t generalizing u x y with
  | leaf sym =>
    cases u with
    | leaf sym' => simpa using h
    | node l r => simp at h
  | node l r ihl ihr =>
    cases u with
    | leaf sym' => simp at h
    | node l' r' =>
      simp only [HuffTree.serialize_node, List.cons_append, List.append_assoc, List.cons.injEq, true_and] at h
      obtain ⟨rfl, hr⟩ := ihl h
      obtain ⟨rfl, hxy⟩ := ihr hr
      exact ⟨rfl, hxy⟩

/-- Settles O34: the length by the count of nodes, and the self-delimitation from the tag of the root on. -/
theorem serializationIsSelfDelimiting : Obligations.SerializationIsSelfDelimiting := by
  unfold Obligations.SerializationIsSelfDelimiting
  exact ⟨HuffTree.serialize_length, fun _ _ _ _ => HuffTree.serialize_append_inj⟩

end Sys2Proof.Machine

/-! The passes of ENCODE and DECODE as functions of the bytes they read (44_encoder_packer.md R193,
45_decoder_unpacker.md R210 to R213). -/

namespace Sys2Proof.Machine

/-! ## Bytes and bits from an offset on -/

/-- The `n` bytes of a region from offset `k` on. -/
def bytesFrom (s : State) (base : Addr) (k n : Nat) : List Byte := (List.range' k n).map (byteAt s base)

/-- The `n` bits of a packed stream from index `k` on. -/
def bitsFrom (s : State) (base : Addr) (k n : Nat) : List Bool := (List.range' k n).map (streamBit s base)

/-- The engine can read the `n` bytes of a region from offset `k` on. -/
def Readable (s : State) (base : Addr) (k n : Nat) : Prop :=
  ∀ j, k ≤ j → j < k + n → s.platform.busError (addrAt base j) .read = false

theorem regionBytes_eq_bytesFrom (s : State) (base : Addr) (n : Nat) : regionBytes s base n = bytesFrom s base 0 n := by
  rw [regionBytes, bytesFrom, List.range_eq_range']

theorem streamBits_eq_bitsFrom (s : State) (base : Addr) (n : Nat) : streamBits s base n = bitsFrom s base 0 n := by
  rw [streamBits, bitsFrom, List.range_eq_range']

theorem bytesFrom_succ (s : State) (base : Addr) (k n : Nat) :
    bytesFrom s base k (n + 1) = byteAt s base k :: bytesFrom s base (k + 1) n := rfl

theorem bitsFrom_succ (s : State) (base : Addr) (k n : Nat) :
    bitsFrom s base k (n + 1) = streamBit s base k :: bitsFrom s base (k + 1) n := rfl

@[simp] theorem bytesFrom_length (s : State) (base : Addr) (k n : Nat) : (bytesFrom s base k n).length = n := by
  simp [bytesFrom]

@[simp] theorem bitsFrom_length (s : State) (base : Addr) (k n : Nat) : (bitsFrom s base k n).length = n := by
  simp [bitsFrom]

theorem readable_iff_noBusError {s : State} {base : Addr} {n : Nat} :
    Readable s base 0 n ↔ NoBusError s base n .read :=
  ⟨fun h k hk => h k (Nat.zero_le _) (by omega), fun h j _ hj => h j (by omega)⟩

theorem Readable.tail {s : State} {base : Addr} {k n : Nat} (h : Readable s base k (n + 1)) :
    Readable s base (k + 1) n := fun j hj hjn => h j (by omega) (by omega)

theorem Readable.cons {s : State} {base : Addr} {k n : Nat} (h0 : s.platform.busError (addrAt base k) .read = false)
    (h : Readable s base (k + 1) n) : Readable s base k (n + 1) := fun j hj hjn => by
  rcases Nat.eq_or_lt_of_le hj with rfl | hlt
  · exact h0
  · exact h j hlt (by omega)

theorem engineRead_of_readable {s : State} {base : Addr} {k : Nat}
    (h : s.platform.busError (addrAt base k) .read = false) : engineRead s (addrAt base k) = .ok (byteAt s base k) :=
  engineRead_eq_ok_iff.2 ⟨h, rfl⟩

theorem engineRead_of_busError {s : State} {a : Addr} (h : s.platform.busError a .read = true) :
    engineRead s a = .error ⟨.ioFailure, a, 0#11⟩ :=
  engineRead_eq_error_iff.2 ⟨h, rfl⟩

/-! ## ENCODE -/

@[simp] theorem CodeEntry.path_length (e : CodeEntry) : e.path.length = e.len.toNat := by
  simp [CodeEntry.path]

theorem codeBits_cons (code : Vector CodeEntry 256) (sym : Sym) (syms : List Sym) :
    codeBits code (sym :: syms) = (codeOf code sym).path ++ codeBits code syms := rfl

/-- Pass 2 of ENCODE succeeds exactly when it can read its bytes, and gives their codes. -/
theorem encodeBits_eq_ok_iff {s : State} {n i : Nat} {bits : List Bool} :
    encodeBits s n i = .ok bits ↔
      Readable s s.larg0 i n ∧ bits = codeBits s.code (bytesFrom s s.larg0 i n) := by
  induction n generalizing i bits with
  | zero =>
    constructor
    · intro h
      cases h
      exact ⟨fun j hj hjn => absurd hj (by omega), rfl⟩
    · rintro ⟨-, rfl⟩
      rfl
  | succ n ih =>
    unfold encodeBits
    cases hb : s.platform.busError (addrAt s.larg0 i) .read with
    | true =>
      rw [engineRead_of_busError hb]
      refine ⟨(nomatch ·), fun h => ?_⟩
      rw [h.1 i le_rfl (by omega)] at hb
      cases hb
    | false =>
      rw [engineRead_of_readable hb]
      cases hrest : encodeBits s n (i + 1) with
      | error e =>
        refine ⟨fun h => by simp at h, fun h => ?_⟩
        rw [ih.2 ⟨h.1.tail, rfl⟩] at hrest
        cases hrest
      | ok rest =>
        obtain ⟨hr, rfl⟩ := ih.1 hrest
        rw [bytesFrom_succ, codeBits_cons]
        constructor
        · intro h
          cases h
          exact ⟨hr.cons hb, rfl⟩
        · rintro ⟨-, rfl⟩
          rfl

/-- Pass 1 of ENCODE goes on after `m` bytes that it can read, that have codes and whose codes fit. -/
theorem encodeCheck_add {s : State} {limit m i total : Nat} (n : Nat) (hr : Readable s s.larg0 i m)
    (hcode : ∀ b ∈ bytesFrom s s.larg0 i m, (codeOf s.code b).len ≠ 0#8)
    (hfit : total + (codeBits s.code (bytesFrom s s.larg0 i m)).length ≤ limit) :
    encodeCheck s limit (m + n) i total =
      encodeCheck s limit n (i + m) (total + (codeBits s.code (bytesFrom s s.larg0 i m)).length) := by
  induction m generalizing i total with
  | zero => simp [bytesFrom, codeBits]
  | succ m ih =>
    rw [bytesFrom_succ, codeBits_cons, List.length_append, CodeEntry.path_length] at hfit ⊢
    rw [bytesFrom_succ, List.forall_mem_cons] at hcode
    have hne : (codeOf s.code (byteAt s s.larg0 i)).len.toNat ≠ 0 := fun h0 =>
      hcode.1 (BitVec.eq_of_toNat_eq h0)
    rw [Nat.add_right_comm m 1 n, encodeCheck, engineRead_of_readable (hr i le_rfl (by omega))]
    simp only [hne, if_false]
    rw [if_neg (by omega), ih hr.tail hcode.2 (by omega), Nat.add_assoc, Nat.add_assoc, Nat.add_comm 1 m]

/-- Pass 1 of ENCODE, ending without error, read its bytes, found their codes and counted their bits, within the limit. -/
theorem encodeCheck_ok {s : State} {limit n i total total' : Nat} (h : encodeCheck s limit n i total = .ok total') :
    Readable s s.larg0 i n ∧ (∀ b ∈ bytesFrom s s.larg0 i n, (codeOf s.code b).len ≠ 0#8) ∧
      total' = total + (codeBits s.code (bytesFrom s s.larg0 i n)).length ∧ (total ≤ limit → total' ≤ limit) := by
  induction n generalizing i total with
  | zero =>
    cases h
    exact ⟨fun j hj hjn => absurd hj (by omega), fun b hb => by simp [bytesFrom] at hb, rfl, id⟩
  | succ n ih =>
    unfold encodeCheck at h
    split at h
    · cases h
    · rename_i b hread
      obtain ⟨hb, rfl⟩ := engineRead_eq_ok_iff.1 hread
      dsimp only at h
      split at h
      · cases h
      · rename_i hne
        split at h
        · cases h
        · rename_i hfit
          obtain ⟨hr, hcode, htotal, hle⟩ := ih h
          refine ⟨hr.cons hb, ?_, ?_, fun _ => hle (by omega)⟩
          · rw [bytesFrom_succ, List.forall_mem_cons]
            exact ⟨fun h0 => hne (congrArg BitVec.toNat h0), hcode⟩
          · rw [htotal, bytesFrom_succ, codeBits_cons, List.length_append, CodeEntry.path_length, byteAt]
            omega

/-- Pass 1 of ENCODE answers `total` exactly when its source bytes can be read and have codes of that many bits
together, within the limit. -/
theorem encodeTotal_eq_ok_iff {s : State} {total : Nat} :
    encodeTotal s = .ok total ↔
      NoBusError s s.larg0 s.larg1.toNat .read ∧
        (∀ b ∈ regionBytes s s.larg0 s.larg1.toNat, (codeOf s.code b).len ≠ 0#8) ∧
        total = (encodedBits s).length ∧ total ≤ encodeLimit s.larg3.toNat := by
  rw [encodedBits, regionBytes_eq_bytesFrom, ← readable_iff_noBusError]
  constructor
  · intro h
    obtain ⟨hr, hcode, htotal, hle⟩ := encodeCheck_ok h
    exact ⟨hr, hcode, by rw [htotal, Nat.zero_add], hle (Nat.zero_le _)⟩
  · rintro ⟨hr, hcode, rfl, hle⟩
    have h := encodeCheck_add (limit := encodeLimit s.larg3.toNat) (total := 0) 0 hr hcode (by rwa [Nat.zero_add])
    exact h.trans (by rw [encodeCheck, Nat.zero_add])

/-! ## DECODE -/

/-- The Decoder's walk over a list of bits: where it ends and the symbols it emits (45_decoder_unpacker.md R212). -/
def walk (t : HuffTree) : List Bool → DecPos → Option (DecPos × List Sym)
  | [], pos => some (pos, [])
  | b :: bits, pos =>
    match decodeStep t pos b with
    | none => none
    | some (pos', emitted) => (walk t bits pos').map fun r => (r.1, emitted.toList ++ r.2)

theorem unpackBit_of_readable {s : State} {base : Addr} {k : Nat}
    (h : s.platform.busError (addrAt base (k / 8)) .read = false) : unpackBit s base k = .ok (streamBit s base k) := by
  rw [unpackBit, engineRead_of_readable h]
  rfl

theorem unpackBit_of_busError {s : State} {base : Addr} {k : Nat}
    (h : s.platform.busError (addrAt base (k / 8)) .read = true) :
    unpackBit s base k = .error ⟨.ioFailure, addrAt base (k / 8), 0#11⟩ := by
  rw [unpackBit, engineRead_of_busError h]

/-- The engine can read the `n` bits of a packed stream from index `k` on. -/
def BitsReadable (s : State) (base : Addr) (k n : Nat) : Prop :=
  ∀ j, k ≤ j → j < k + n → s.platform.busError (addrAt base (j / 8)) .read = false

theorem bitsReadable_of_noBusError {s : State} {base : Addr} {m n : Nat} (h : NoBusError s base m .read)
    (hn : ceil8 n ≤ m) : BitsReadable s base 0 n := fun j _ hj => h (j / 8) (by unfold ceil8 at hn; omega)

/-- Pass 1 of DECODE goes on after bits that it can read, that walk the tree and whose symbols fit. -/
theorem decodeWalk_add {s : State} {t : HuffTree} {cap m k : Nat} {pos pos' : DecPos} {out emitted : List Sym} (n : Nat)
    (hr : BitsReadable s s.larg0 k m) (hw : walk t (bitsFrom s s.larg0 k m) pos = some (pos', emitted))
    (hfit : out.length + emitted.length ≤ cap) :
    decodeWalk s t cap (m + n) k pos out = decodeWalk s t cap n (k + m) pos' (out ++ emitted) := by
  induction m generalizing k pos out emitted with
  | zero =>
    cases hw
    simp
  | succ m ih =>
    have htail : BitsReadable s s.larg0 (k + 1) m := fun j hj hjn => hr j (by omega) (by omega)
    rw [bitsFrom_succ, walk] at hw
    rw [Nat.add_right_comm m 1 n, decodeWalk, unpackBit_of_readable (hr k le_rfl (by omega))]
    rw [show k + (m + 1) = k + 1 + m by omega]
    cases hstep : decodeStep t pos (streamBit s s.larg0 k) with
    | none => simp [hstep] at hw
    | some step =>
      obtain ⟨pos1, sym?⟩ := step
      rw [hstep] at hw
      obtain ⟨⟨pos2, rest⟩, hrest, hend⟩ := Option.map_eq_some_iff.1 hw
      cases hend
      simp only [List.length_append] at hfit
      cases sym? with
      | none => simpa only [hstep, Option.toList_none, List.nil_append] using ih htail hrest (by simpa using hfit)
      | some sym =>
        simp only [Option.toList_some, List.length_singleton] at hfit
        simp only [hstep, Option.toList_some]
        rw [if_neg (by omega), ih htail hrest (by simp only [List.length_append, List.length_singleton]; omega),
          List.append_assoc]

/-- Pass 1 of DECODE, ending without error, read its bits and walked the tree with them, within the capacity. -/
theorem decodeWalk_ok {s : State} {t : HuffTree} {cap n k : Nat} {pos pos' : DecPos} {out out' : List Sym}
    (h : decodeWalk s t cap n k pos out = .ok (pos', out')) :
    BitsReadable s s.larg0 k n ∧ ∃ emitted, walk t (bitsFrom s s.larg0 k n) pos = some (pos', emitted) ∧
      out' = out ++ emitted ∧ (out.length ≤ cap → out'.length ≤ cap) := by
  induction n generalizing k pos out with
  | zero =>
    cases h
    exact ⟨fun j hj hjn => absurd hj (by omega), [], rfl, by simp, id⟩
  | succ n ih =>
    unfold decodeWalk at h
    have readable : s.platform.busError (addrAt s.larg0 (k / 8)) .read = false := by
      cases hb : s.platform.busError (addrAt s.larg0 (k / 8)) .read with
      | false => rfl
      | true =>
        rw [unpackBit_of_busError hb] at h
        cases h
    have cons : BitsReadable s s.larg0 (k + 1) n → BitsReadable s s.larg0 k (n + 1) := fun hr j hj hjn => by
      rcases Nat.eq_or_lt_of_le hj with rfl | hlt
      · exact readable
      · exact hr j hlt (by omega)
    rw [unpackBit_of_readable readable] at h
    rw [bitsFrom_succ, walk]
    dsimp only at h
    split at h
    · cases h
    · rename_i pos1 hstep
      obtain ⟨hr, emitted, hw, hout, hle⟩ := ih h
      exact ⟨cons hr, emitted, by simp [hstep, hw], hout, hle⟩
    · rename_i pos1 sym hstep
      split at h
      · cases h
      · rename_i hfit
        obtain ⟨hr, emitted, hw, hout, hle⟩ := ih h
        refine ⟨cons hr, sym :: emitted, by simp [hstep, hw], by simp [hout], fun hcap => hle ?_⟩
        simp only [List.length_append, List.length_singleton]
        omega

end Sys2Proof.Machine

/-! What each command comes to: the output a writing command produces, the errors found in the data, and from these the
frame, the memory and the completion of every command (10_state.md R47, 20_memory.md R63, 60_exceptions.md R234, R237,
70_reset_and_hazards.md R265, R275). -/

namespace Sys2Proof.Machine

/-! ## Completions with everything they keep -/

/-- An error completion changes nothing but the registers of 60_exceptions.md R236. -/
theorem State.raiseError_frame (s : State) (e : CmdError) :
    Raised s (s.raiseError e) e ∧ KeepsTables s (s.raiseError e) ∧ KeepsMemory s (s.raiseError e) ∧
      KeepsControl s (s.raiseError e) :=
  ⟨⟨rfl, rfl, rfl, rfl, rfl, rfl, rfl⟩, s.raiseError_keepsTables e, fun _ => rfl, (s.raiseError_ends e).idle_done_keepsControl.2.2⟩

/-- The bytes of a region that fits lie at its own addresses. -/
theorem Region.contains_addrAt {base : Addr} {n i : Nat} (hfit : base.toNat + n ≤ 2 ^ 32) (hi : i < n) :
    Region.contains ⟨base, n⟩ (addrAt base i) = true := by
  rw [Region.contains_iff, addrAt_toNat (by omega)]
  exact ⟨Nat.le_add_right _ _, Nat.add_lt_add_left hi _⟩

/-- An address of a region that fits is that of one of its bytes. -/
theorem exists_addrAt_of_contains {base a : Addr} {n : Nat} (h : Region.contains ⟨base, n⟩ a = true) :
    ∃ i, i < n ∧ a = addrAt base i := by
  obtain ⟨hlow, hhigh⟩ := Region.contains_iff.1 h
  simp only at hlow hhigh
  have ha := a.isLt
  refine ⟨a.toNat - base.toNat, by omega, BitVec.eq_of_toNat_eq ?_⟩
  rw [addrAt_toNat (by omega)]
  omega

/-- A write of a region that fits changes no byte outside it, whether it fails or not. -/
theorem writeAndComplete_keepsMemoryOutside {base : Addr} {bytes : List Byte} {n : Nat} (r0 r1 : Word) (s : State)
    (hn : bytes.length ≤ n) (hfit : n = 0 ∨ base.toNat + n ≤ 2 ^ 32) :
    KeepsMemoryOutside base n s (writeAndComplete base bytes r0 r1 s) := by
  intro a ha
  have hne : ∀ i, i < bytes.length → a ≠ addrAt base (0 + i) := fun i hi he => by
    have hc := Region.contains_addrAt (base := base) (n := n) (i := i) (by omega) (by omega)
    rw [Nat.zero_add] at he
    rw [← he, ha] at hc
    cases hc
  rcases writeAndComplete_cases base bytes r0 r1 s with ⟨t, h, he⟩ | ⟨t, e, h, he⟩
  · rw [he, State.complete_mem, writeBytes_outside h hne]
  · rw [he, State.raiseError_mem, writeBytes_outside h hne]

/-- With no bus error a write of a region that fits stores its bytes, changes no other byte, and completes. -/
theorem writeAndComplete_succeeds {base : Addr} {bytes : List Byte} (r0 r1 : Word) {s : State}
    (herr : NoBusError s base bytes.length .write) (hwf : s.mem.wf)
    (hfit : bytes.length = 0 ∨ base.toNat + bytes.length ≤ 2 ^ 32) :
    let t := writeAndComplete base bytes r0 r1 s
    regionBytes t base bytes.length = bytes ∧ Succeeded s t r0 r1 ∧ KeepsMemoryOutside base bytes.length s t ∧
      KeepsTables s t ∧ KeepsControl s t := by
  intro t
  obtain ⟨u, hu⟩ := writeBytes_ok (s := s) (base := base) (k := 0) (bytes := bytes) fun i hi => by
    rw [Nat.zero_add]
    exact herr i hi
  have ht : t = u.complete r0 r1 := by simp only [t, writeAndComplete, hu]
  have hchanges := writeBytes_changes hu
  refine ⟨?_, ?_, writeAndComplete_keepsMemoryOutside r0 r1 s le_rfl hfit, writeAndComplete_keepsTables ..,
    (writeAndComplete_ends ..).idle_done_keepsControl.2.2⟩
  · refine List.ext_getElem (by simp [regionBytes]) fun i hi _ => ?_
    have hlt : i < bytes.length := by simpa [regionBytes] using hi
    have hstored := writeBytes_stored hu hwf (by omega) i hlt
    rw [Nat.zero_add] at hstored
    simp only [regionBytes, List.getElem_map, List.getElem_range, ht, byteAt, State.complete_mem, hstored]
  · rw [ht, hchanges]
    exact ⟨rfl, rfl, rfl, rfl, rfl, rfl, rfl⟩

/-! ## The output of a command -/

/-- What a command writes to its destination region, and the results it completes with. -/
structure Output where
  bytes : List Byte
  result0 : Word
  result1 : Word

/-- A command that passes its checks comes to write the output `o` (42_code_generator.md R144, 43_tree_codec.md R161,
44_encoder_packer.md R193, 45_decoder_unpacker.md R213). -/
def Produces (i : Instr) (s : State) (o : Output) : Prop :=
  commandChecks i s = .ok () ∧
    match i with
    | .rdcode sym => o = ⟨codeImage (codeOf s.code sym), (codeOf s.code sym).len.setWidth 32, 0#32⟩
    | .encode => ∃ total bits, encodeTotal s = .ok total ∧ encodeBits s s.larg1.toNat 0 = .ok bits ∧
        o = ⟨packBits bits, BitVec.ofNat 32 (packBits bits).length, BitVec.ofNat 32 total⟩
    | .decode => ∃ t out, s.arena.tree = some t ∧ decodeSymbols s t = .ok out ∧
        o = ⟨out, BitVec.ofNat 32 out.length, BitVec.ofNat 32 (ceil8 s.larg1.toNat)⟩
    | .save => ∃ t, s.arena.tree = some t ∧
        o = ⟨t.serialize, BitVec.ofNat 32 s.saveSize, s.arena.nleaves.setWidth 32⟩
    | _ => False

/-- The output is written to the destination region, and the command completes. -/
def Output.write (o : Output) (base : Addr) (s : State) : State := writeAndComplete base o.bytes o.result0 o.result1 s

theorem exec_of_produces {i : Instr} {s : State} {o : Output} (h : Produces i s o) :
    exec i s = .next (o.write (destRegion i s).base s) := by
  obtain ⟨hc, h⟩ := h
  cases i with
  | rdcode sym =>
    subst h
    simp only [exec, execRdcode, hc, Output.write, destRegion]
  | encode =>
    obtain ⟨total, bits, htotal, hbits, rfl⟩ := h
    simp only [exec, execEncode, hc, htotal, hbits, Output.write, destRegion]
  | decode =>
    obtain ⟨t, out, ht, hout, rfl⟩ := h
    simp only [exec, execDecode, hc, ht, hout, Output.write, destRegion]
  | save =>
    obtain ⟨t, ht, rfl⟩ := h
    simp only [exec, execSave, hc, ht, Output.write, destRegion]
  | _ => exact h.elim

/-! ## Errors found in the data -/

/-- A failing access that an error reports is a read (60_exceptions.md R231). -/
def ReportsRead (e : CmdError) : Prop := e.kind = .ioFailure → e.data = 0#11

theorem reportsRead_of_kind {e : CmdError} (h : e.kind ≠ .ioFailure) : ReportsRead e := fun hk => absurd hk h

theorem reportsRead_of_engineRead {s : State} {a : Addr} {e : CmdError} (h : engineRead s a = .error e) :
    ReportsRead e := fun _ => by rw [(engineRead_eq_error_iff.1 h).2]

theorem reportsRead_of_readFreqWords {s : State} {base : Addr} {n k : Nat} {e : CmdError}
    (h : readFreqWords s base n k = .error e) : ReportsRead e := by
  induction n generalizing k with
  | zero => cases h
  | succ n ih =>
    unfold readFreqWords readFreqWord at h
    split at h
    · rename_i hw
      cases h
      repeat' split at hw
      all_goals cases hw
      all_goals exact reportsRead_of_engineRead (by assumption)
    · split at h <;> cases h
      rename_i hrest
      exact ih hrest

theorem reportsRead_of_encodeCheck {s : State} {limit n i total : Nat} {e : CmdError}
    (h : encodeCheck s limit n i total = .error e) : ReportsRead e := by
  induction n generalizing i total with
  | zero => cases h
  | succ n ih =>
    unfold encodeCheck at h
    split at h
    · rename_i hread
      cases h; exact reportsRead_of_engineRead hread
    · dsimp only at h
      split at h
      · cases h; exact reportsRead_of_kind (by simp)
      · split at h
        · cases h; exact reportsRead_of_kind (by simp)
        · exact ih h

theorem reportsRead_of_encodeBits {s : State} {n i : Nat} {e : CmdError} (h : encodeBits s n i = .error e) :
    ReportsRead e := by
  induction n generalizing i with
  | zero => cases h
  | succ n ih =>
    unfold encodeBits at h
    split at h
    · rename_i hread
      cases h; exact reportsRead_of_engineRead hread
    · split at h <;> cases h
      rename_i hrest
      exact ih hrest

theorem reportsRead_of_decodeWalk {s : State} {t : HuffTree} {cap n k : Nat} {pos : DecPos} {out : List Sym}
    {e : CmdError} (h : decodeWalk s t cap n k pos out = .error e) : ReportsRead e := by
  induction n generalizing k pos out with
  | zero => cases h
  | succ n ih =>
    unfold decodeWalk unpackBit at h
    split at h
    · rename_i hbit
      split at hbit <;> cases hbit
      rename_i hread
      cases h; exact reportsRead_of_engineRead hread
    · split at h
      · cases h; exact reportsRead_of_kind (by simp)
      · exact ih h
      · split at h
        · cases h; exact reportsRead_of_kind (by simp)
        · exact ih h

theorem reportsRead_of_decodeSymbols {s : State} {t : HuffTree} {e : CmdError} (h : decodeSymbols s t = .error e) :
    ReportsRead e := by
  unfold decodeSymbols at h
  split at h
  · rename_i hwalk
    cases h; exact reportsRead_of_decodeWalk hwalk
  · cases h
  · cases h; exact reportsRead_of_kind (by simp)

theorem reportsRead_of_loadNode {s : State} {avail : Nat} {slot : Slot} {rest : List Slot} {ld : Loader} {e : CmdError}
    (h : loadNode s avail slot rest ld = .error e) : ReportsRead e := by
  unfold loadNode at h
  split at h
  · rename_i hread
    cases h; exact reportsRead_of_engineRead hread
  · dsimp only at h
    repeat' split at h
    all_goals cases h
    · exact reportsRead_of_kind (by simp [malformed])
    · rename_i hread
      exact reportsRead_of_engineRead hread
    · exact reportsRead_of_kind (by simp [malformed])
    · exact reportsRead_of_kind (by simp [malformed])

theorem reportsRead_of_loadLoop {s : State} {avail room : Nat} {ld : Loader} {e : CmdError}
    (h : loadLoop s avail room ld = .error e) : ReportsRead e := by
  induction room generalizing ld with
  | zero =>
    unfold loadLoop at h
    split at h
    · cases h
    · split at h <;> cases h <;> exact reportsRead_of_kind (by simp [malformed])
  | succ room ih =>
    unfold loadLoop at h
    split at h
    · cases h
    · split at h
      · cases h; exact reportsRead_of_kind (by simp [malformed])
      · split at h
        · rename_i hnode
          cases h; exact reportsRead_of_loadNode hnode
        · exact ih h

/-- The errors a command may raise after its checks and before its first write: they are found in what it reads. -/
def errorsInData : Instr → List ErrorKind
  | .ldfreq => [.ioFailure]
  | .build => [.emptyAlphabet]
  | .encode => [.ioFailure, .unknownSymbol, .outputOverflow]
  | .decode => [.ioFailure, .corruptStream, .outputOverflow, .truncatedStream]
  | .load => [.ioFailure, .malformedTree]
  | _ => []

/-- `t` is the end of a command that passed its checks and wrote no memory: a success of a command without a destination
region, or an error found in its data. -/
def EndsWithoutWrite (i : Instr) (s t : State) : Prop :=
  t.mem = s.mem ∧
    (t.err = 0#4 ∧ (destRegion i s).len = 0 ∨
      ∃ u e, e.kind ∈ errorsInData i ∧ ReportsRead e ∧ t = State.raiseError u e)

theorem endsWithoutWrite_complete {i : Instr} {s u : State} (hu : u.mem = s.mem) (hi : (destRegion i s).len = 0)
    (r0 r1 : Word) : EndsWithoutWrite i s (u.complete r0 r1) := ⟨hu, .inl ⟨rfl, hi⟩⟩

theorem endsWithoutWrite_raise {i : Instr} {s u : State} {e : CmdError} (hu : u.mem = s.mem)
    (hk : e.kind ∈ errorsInData i) (hr : ReportsRead e) : EndsWithoutWrite i s (u.raiseError e) :=
  ⟨hu, .inr ⟨u, e, hk, hr, rfl⟩⟩

/-- A command that passed its checks writes its output, or ends without a write. -/
theorem exec_cases_of_checks_ok {i : Instr} {s t : State} (hc : commandChecks i s = .ok ()) (h : exec i s = .next t) :
    (∃ o, Produces i s o ∧ t = o.write (destRegion i s).base s) ∨ EndsWithoutWrite i s t := by
  have written : ∀ {o : Output}, Produces i s o → ∃ o, Produces i s o ∧ t = o.write (destRegion i s).base s :=
    fun {o} ho => ⟨o, ho, Host.Outcome.next.inj (h.symm.trans (exec_of_produces ho))⟩
  cases i with
  | clrfreq => cases h; exact .inr (endsWithoutWrite_complete (by rfl) rfl _ _)
  | setfreq sym => cases h; exact .inr (endsWithoutWrite_complete (by rfl) rfl _ _)
  | ldfreq =>
    unfold exec execLdfreq at h
    rw [hc] at h
    dsimp only at h
    split at h <;> cases h
    · rename_i hread
      exact .inr (endsWithoutWrite_raise rfl (by simp [errorsInData, kind_of_readFreqWords_error hread])
        (reportsRead_of_readFreqWords hread))
    · exact .inr (endsWithoutWrite_complete (s.writeFreqTable_mem _) rfl _ _)
  | build =>
    simp only [exec, execBuild] at h
    split at h
    · split at h <;> cases h
      · exact .inr (endsWithoutWrite_raise rfl (by simp [errorsInData]) (reportsRead_of_kind (by simp)))
      · exact .inr (endsWithoutWrite_complete (by rfl) rfl _ _)
    · cases h
  | gencodes =>
    simp only [exec, execGencodes, hc] at h
    split at h <;> cases h
    exact .inr (endsWithoutWrite_complete (by rfl) rfl _ _)
  | rdcode sym =>
    have ho : Produces (.rdcode sym) s
        ⟨codeImage (codeOf s.code sym), (codeOf s.code sym).len.setWidth 32, 0#32⟩ := ⟨hc, rfl⟩
    exact .inl (written ho)
  | encode =>
    cases htotal : encodeTotal s with
    | error e =>
      simp only [exec, execEncode, hc, htotal] at h
      cases h
      refine .inr (endsWithoutWrite_raise rfl ?_ (reportsRead_of_encodeCheck htotal))
      rcases kind_of_encodeCheck_error htotal with hk | hk | hk <;> simp [errorsInData, hk]
    | ok total =>
      cases hbits : encodeBits s s.larg1.toNat 0 with
      | error e =>
        simp only [exec, execEncode, hc, htotal, hbits] at h
        cases h
        exact .inr (endsWithoutWrite_raise rfl (by simp [errorsInData, kind_of_encodeBits_error hbits])
          (reportsRead_of_encodeBits hbits))
      | ok bits => exact .inl (written ⟨hc, total, bits, htotal, hbits, rfl⟩)
  | decode =>
    cases htree : s.arena.tree with
    | none => simp [exec, execDecode, hc, htree] at h
    | some tr =>
      cases hout : decodeSymbols s tr with
      | error e =>
        simp only [exec, execDecode, hc, htree, hout] at h
        cases h
        refine .inr (endsWithoutWrite_raise rfl ?_ (reportsRead_of_decodeSymbols hout))
        rcases kind_of_decodeSymbols_error hout with hk | hk | hk | hk <;> simp [errorsInData, hk]
      | ok out => exact .inl (written ⟨hc, tr, out, htree, hout, rfl⟩)
  | save =>
    cases htree : s.arena.tree with
    | none => simp [exec, execSave, hc, htree] at h
    | some tr => exact .inl (written ⟨hc, tr, htree, rfl⟩)
  | load =>
    simp only [exec, execLoad, hc] at h
    split at h <;> cases h
    · rename_i hparse
      refine .inr (endsWithoutWrite_raise rfl ?_ (reportsRead_of_loadLoop hparse))
      rcases kind_of_loadLoop_error hparse with hk | hk <;> simp [errorsInData, hk]
    · exact .inr (endsWithoutWrite_complete (by rfl) rfl _ _)

/-! ## Errors of the checks -/

theorem kind_of_checkTree_error {s : State} {e : CmdError} (h : checkTree s = .error e) : e.kind = .noTree := by
  unfold checkTree at h
  split at h <;> cases h
  rfl

theorem kind_of_checkCodes_error {s : State} {e : CmdError} (h : checkCodes s = .error e) : e.kind = .noCodes := by
  unfold checkCodes at h
  split at h <;> cases h
  rfl

theorem kind_of_checkSource_error {r : Region} {e : CmdError} (h : checkSource r = .error e) : e.kind = .badRegion := by
  unfold checkSource at h
  split at h <;> cases h
  rfl

theorem kind_of_checkDest_error {r : Region} {e : CmdError} (h : checkDest r = .error e) : e.kind = .badRegion := by
  unfold checkDest at h
  split at h <;> cases h
  rfl

theorem kind_of_checkRegions_error {src dst : Region} {e : CmdError} (h : checkRegions src dst = .error e) :
    e.kind = .badRegion := by
  unfold checkRegions at h
  split at h
  · rename_i hsrc
    cases h; exact kind_of_checkSource_error hsrc
  · split at h
    · rename_i hdst
      cases h; exact kind_of_checkDest_error hdst
    · split at h <;> cases h
      rfl

/-- The errors that a command's checks raise before any access (60_exceptions.md R234, checks 2 to 4). -/
def checkErrors : List ErrorKind := [.noTree, .noCodes, .badRegion, .outputOverflow]

theorem kind_of_commandChecks_error {i : Instr} {s : State} {e : CmdError} (h : commandChecks i s = .error e) :
    e.kind ∈ checkErrors := by
  have hmem := firstError_mem h
  have tree : .error e = checkTree s → e.kind ∈ checkErrors := fun h => by
    simp [checkErrors, kind_of_checkTree_error h.symm]
  have codes : .error e = checkCodes s → e.kind ∈ checkErrors := fun h => by
    simp [checkErrors, kind_of_checkCodes_error h.symm]
  have source : ∀ r, .error e = checkSource r → e.kind ∈ checkErrors := fun r h => by
    simp [checkErrors, kind_of_checkSource_error h.symm]
  have dest : ∀ r, .error e = checkDest r → e.kind ∈ checkErrors := fun r h => by
    simp [checkErrors, kind_of_checkDest_error h.symm]
  have regions : ∀ r t, .error e = checkRegions r t → e.kind ∈ checkErrors := fun r t h => by
    simp [checkErrors, kind_of_checkRegions_error h.symm]
  have room : ∀ cap size, .error e = checkRoom cap size → e.kind ∈ checkErrors := fun cap size h => by
    simp [checkErrors, kind_of_checkRoom_error h.symm]
  cases i with
  | clrfreq => cases hmem
  | setfreq sym => cases hmem
  | build => cases hmem
  | ldfreq => exact source _ (List.mem_singleton.1 hmem)
  | load => exact source _ (List.mem_singleton.1 hmem)
  | gencodes => exact tree (List.mem_singleton.1 hmem)
  | encode =>
    simp only [checksOf, List.mem_cons, List.not_mem_nil, or_false] at hmem
    exact hmem.elim codes (regions _ _)
  | decode =>
    simp only [checksOf, List.mem_cons, List.not_mem_nil, or_false] at hmem
    exact hmem.elim tree (regions _ _)
  | rdcode sym =>
    simp only [checksOf, List.mem_cons, List.not_mem_nil, or_false] at hmem
    exact hmem.elim codes fun h => h.elim (dest _) (room _ _)
  | save =>
    simp only [checksOf, List.mem_cons, List.not_mem_nil, or_false] at hmem
    exact hmem.elim tree fun h => h.elim (dest _) (room _ _)

/-! ## The three ways a command ends -/

/-- A command that reaches a next state wrote its output, found an error in its checks, or ends without a write. -/
theorem exec_cases {i : Instr} {s t : State} (h : exec i s = .next t) :
    (∃ o, Produces i s o ∧ t = o.write (destRegion i s).base s) ∨
      (∃ e, commandChecks i s = .error e ∧ t = (if i = .load then s.dropTree else s).raiseError e) ∨
      EndsWithoutWrite i s t := by
  cases hc : commandChecks i s with
  | ok u => exact (exec_cases_of_checks_ok hc h).imp_right .inr
  | error e => exact .inr (.inl ⟨e, rfl, Host.Outcome.next.inj (h.symm.trans (exec_of_checks_error hc))⟩)

theorem ErrorKind.code_injective : Function.Injective ErrorKind.code := fun j k => by
  cases j <;> cases k <;> decide

/-- A command whose completion has an error of its checks, and which may find none such in its data, failed a check. -/
theorem exists_checks_error_of_err {i : Instr} {s t : State} {k : ErrorKind} (h : exec i s = .next t)
    (ht : t.err = k.code) (hk : k ≠ .ioFailure) (hdata : k ∉ errorsInData i) : ∃ e, commandChecks i s = .error e := by
  rcases exec_cases h with ⟨o, -, rfl⟩ | ⟨e, he, -⟩ | ⟨-, ⟨h0, -⟩ | ⟨u, e, hmem, -, rfl⟩⟩
  · rcases writeAndComplete_err (destRegion i s).base o.bytes o.result0 o.result1 s with h0 | h6
    · exact absurd (ht.symm.trans h0) k.code_ne_zero
    · exact absurd (ErrorKind.code_injective (ht.symm.trans h6)) hk
  · exact ⟨e, he⟩
  · exact absurd (ht.symm.trans h0) k.code_ne_zero
  · exact absurd (ErrorKind.code_injective ht ▸ hmem) hdata

/-! ## The step that runs the latched command -/

/-- The engine's turn runs the latched command when it touches no device. -/
theorem engineTurn_eq_exec {s : State} {i : Instr} (hb : s.eng = .busy) (hd : decode s.lcmd = .ok i)
    (ht : touchesDevice i s = false) : engineTurn s = exec i s := by
  simp [engineTurn, hb, hd, runCommand, ht]

theorem step_of_engine {s : State} {rest : List Input} (h : s.inputs = .engine :: rest) :
    step s = engineTurn { s with inputs := rest } := by
  simp only [step, takeNext, h, takeInput]

theorem step_of_no_input {s : State} (h : s.inputs = []) : step s = engineTurn s := by
  simp only [step, takeNext, h]

end Sys2Proof.Machine

/-! What a command reads: the latched state, the internal memories, the shared memory and the platform, and nothing else
of the state (10_state.md R33, 70_reset_and_hazards.md R270). -/

namespace Sys2Proof.Machine

/-! ## States that a command reads alike -/

/-- `u` has all that a command reads in `s`. -/
structure SameView (s u : State) : Prop where
  platform : u.platform = s.platform
  mem : u.mem = s.mem
  larg0 : u.larg0 = s.larg0
  larg1 : u.larg1 = s.larg1
  larg2 : u.larg2 = s.larg2
  larg3 : u.larg3 = s.larg3
  arena : u.arena = s.arena
  treeValid : u.treeValid = s.treeValid
  code : u.code = s.code
  codesValid : u.codesValid = s.codesValid
  freeCount : u.freeCount = s.freeCount

theorem SameView.with_inputs (s : State) (rest : List Input) : SameView s { s with inputs := rest } :=
  ⟨rfl, rfl, rfl, rfl, rfl, rfl, rfl, rfl, rfl, rfl, rfl⟩

theorem SameView.withArgs (s : State) (a0 a1 a2 a3 : Word) : SameView s (s.withArgs a0 a1 a2 a3) :=
  ⟨rfl, rfl, rfl, rfl, rfl, rfl, rfl, rfl, rfl, rfl, rfl⟩

section SameView

variable {s u : State}

theorem SameView.engineRead (h : SameView s u) (a : Addr) : engineRead u a = engineRead s a := by
  simp only [Machine.engineRead, h.platform, h.mem]

theorem SameView.sourceRegion (h : SameView s u) (i : Instr) : sourceRegion i u = sourceRegion i s := by
  cases i <;> simp only [Machine.sourceRegion, h.larg0, h.larg1]

theorem SameView.destRegion (h : SameView s u) (i : Instr) : destRegion i u = destRegion i s := by
  cases i <;> simp only [Machine.destRegion, h.larg2, h.larg3]

theorem SameView.commandChecks (h : SameView s u) (i : Instr) : commandChecks i u = commandChecks i s := by
  cases i <;>
    simp only [Machine.commandChecks, checksOf, checkTree, checkCodes, State.saveSize, h.sourceRegion, h.destRegion,
      h.treeValid, h.codesValid, h.larg3, h.arena]

theorem SameView.readFreqWords (h : SameView s u) (base : Addr) (n k : Nat) :
    readFreqWords u base n k = readFreqWords s base n k := by
  induction n generalizing k with
  | zero => rfl
  | succ n ih => simp only [Machine.readFreqWords, readFreqWord, h.engineRead, ih]

theorem SameView.encodeTotal (h : SameView s u) : encodeTotal u = encodeTotal s := by
  have check : ∀ limit n i total, encodeCheck u limit n i total = encodeCheck s limit n i total := by
    intro limit n
    induction n with
    | zero => intro i total; rfl
    | succ n ih => intro i total; simp only [encodeCheck, h.engineRead, h.larg0, h.code, ih]
  simp only [Machine.encodeTotal, check, h.larg1, h.larg3]

theorem SameView.encodeBits (h : SameView s u) (n i : Nat) : encodeBits u n i = encodeBits s n i := by
  induction n generalizing i with
  | zero => rfl
  | succ n ih => simp only [Machine.encodeBits, h.engineRead, h.larg0, h.code, ih]

theorem SameView.decodeSymbols (h : SameView s u) (t : HuffTree) : decodeSymbols u t = decodeSymbols s t := by
  have walk : ∀ cap n k pos out, decodeWalk u t cap n k pos out = decodeWalk s t cap n k pos out := by
    intro cap n
    induction n with
    | zero => intro k pos out; rfl
    | succ n ih => intro k pos out; simp only [decodeWalk, unpackBit, h.engineRead, h.larg0, ih]
  simp only [Machine.decodeSymbols, walk, h.larg1, h.larg3]

theorem SameView.parseTree (h : SameView s u) : parseTree u = parseTree s := by
  have node : ∀ avail slot rest ld, loadNode u avail slot rest ld = loadNode s avail slot rest ld := by
    intro avail slot rest ld
    simp only [loadNode, h.engineRead, h.larg0]
  have loop : ∀ avail room ld, loadLoop u avail room ld = loadLoop s avail room ld := by
    intro avail room
    induction room with
    | zero => intro ld; rfl
    | succ room ih => intro ld; simp only [loadLoop, node, ih]
  simp only [Machine.parseTree, loop, State.freeNodes, h.larg1, h.freeCount]

theorem SameView.touchesDevice (h : SameView s u) (i : Instr) : touchesDevice i u = touchesDevice i s := by
  have writes : writesDest i u = writesDest i s := by
    cases i <;> simp only [writesDest, h.encodeTotal, h.decodeSymbols, h.arena]
  simp only [Machine.touchesDevice, passesChecks, h.sourceRegion, h.destRegion, h.commandChecks, h.platform, writes]

end SameView

/-! ## One byte of a region write -/

theorem writeBytes_cons_of_busError {base : Addr} {k : Nat} {s : State} (v : Byte) (rest : List Byte)
    (h : s.platform.busError (addrAt base k) .write = true) :
    writeBytes base k (v :: rest) s =
      ({ s with mem := s.mem.write (addrAt base k) (Config.freeByte s.freeCount), freeCount := s.freeCount + 1 },
        some ⟨.ioFailure, addrAt base k, 1#11⟩) := by
  simp only [writeBytes, engineWrite, h, if_true]

theorem writeBytes_cons {base : Addr} {k : Nat} {s : State} (v : Byte) (rest : List Byte)
    (h : s.platform.busError (addrAt base k) .write = false) :
    writeBytes base k (v :: rest) s =
      writeBytes base (k + 1) rest { s with mem := s.mem.write (addrAt base k) v } := by
  simp only [writeBytes, engineWrite, h, Bool.false_eq_true, if_false]

/-! ## The argument registers -/

section WithArgs

variable (s : State) (a0 a1 a2 a3 : Word)

@[simp] theorem State.withArgs_latchedRegions : (s.withArgs a0 a1 a2 a3).latchedRegions = s.latchedRegions :=
  State.latchedRegions_congr rfl rfl rfl rfl rfl

theorem State.withArgs_writeFreqTable (table : Vector Word 256) :
    (s.withArgs a0 a1 a2 a3).writeFreqTable table = (s.writeFreqTable table).withArgs a0 a1 a2 a3 := rfl

theorem State.withArgs_complete (r0 r1 : Word) :
    (s.withArgs a0 a1 a2 a3).complete r0 r1 = (s.complete r0 r1).withArgs a0 a1 a2 a3 := by
  simp only [State.complete, State.discardLatched, State.withArgs_latchedRegions]
  rfl

theorem State.withArgs_raiseError (e : CmdError) :
    (s.withArgs a0 a1 a2 a3).raiseError e = (s.raiseError e).withArgs a0 a1 a2 a3 := by
  simp only [State.raiseError, State.discardLatched, State.withArgs_latchedRegions]
  rfl

theorem writeBytes_withArgs (base : Addr) (k : Nat) (bytes : List Byte) :
    writeBytes base k bytes (s.withArgs a0 a1 a2 a3) =
      ((writeBytes base k bytes s).1.withArgs a0 a1 a2 a3, (writeBytes base k bytes s).2) := by
  induction bytes generalizing k s with
  | nil => rfl
  | cons v rest ih =>
    cases hb : s.platform.busError (addrAt base k) .write with
    | true =>
      rw [writeBytes_cons_of_busError _ _ hb, writeBytes_cons_of_busError (s := s.withArgs a0 a1 a2 a3) _ _ hb]
      rfl
    | false =>
      rw [writeBytes_cons _ _ hb, writeBytes_cons (s := s.withArgs a0 a1 a2 a3) _ _ hb]
      exact ih { s with mem := s.mem.write (addrAt base k) v } (k + 1)

theorem writeAndComplete_withArgs (base : Addr) (bytes : List Byte) (r0 r1 : Word) :
    writeAndComplete base bytes r0 r1 (s.withArgs a0 a1 a2 a3) =
      (writeAndComplete base bytes r0 r1 s).withArgs a0 a1 a2 a3 := by
  simp only [writeAndComplete, writeBytes_withArgs]
  rcases writeBytes base 0 bytes s with ⟨t, _ | e⟩
  · exact t.withArgs_complete a0 a1 a2 a3 r0 r1
  · exact t.withArgs_raiseError a0 a1 a2 a3 e

/-- A command with other argument registers does the same beside them. -/
theorem exec_withArgs (i : Instr) :
    exec i (s.withArgs a0 a1 a2 a3) = mapNext (fun t => t.withArgs a0 a1 a2 a3) (exec i s) := by
  have hview := SameView.withArgs s a0 a1 a2 a3
  have raised : ∀ (u : State) (e : CmdError), Host.Outcome.next (((u.withArgs a0 a1 a2 a3).raiseError e)) =
      mapNext (fun t => t.withArgs a0 a1 a2 a3) (.next (u.raiseError e)) :=
    fun u e => congrArg _ (u.withArgs_raiseError a0 a1 a2 a3 e)
  have completed : ∀ (u : State) (r0 r1 : Word), Host.Outcome.next ((u.withArgs a0 a1 a2 a3).complete r0 r1) =
      mapNext (fun t => t.withArgs a0 a1 a2 a3) (.next (u.complete r0 r1)) :=
    fun u r0 r1 => congrArg _ (u.withArgs_complete a0 a1 a2 a3 r0 r1)
  have written : ∀ (base : Addr) (bytes : List Byte) (r0 r1 : Word),
      Host.Outcome.next (writeAndComplete base bytes r0 r1 (s.withArgs a0 a1 a2 a3)) =
        mapNext (fun t => t.withArgs a0 a1 a2 a3) (.next (writeAndComplete base bytes r0 r1 s)) :=
    fun base bytes r0 r1 => congrArg _ (writeAndComplete_withArgs s a0 a1 a2 a3 base bytes r0 r1)
  have hcheck := hview.commandChecks i
  cases i with
  | clrfreq => exact completed (s.writeFreqTable _) _ _
  | setfreq sym => exact completed (s.writeFreq sym _) _ _
  | ldfreq =>
    unfold exec execLdfreq
    rw [hcheck]
    dsimp only
    rw [hview.larg0, hview.readFreqWords]
    split
    · exact raised s _
    · split
      · exact raised s _
      · exact completed (s.writeFreqTable _) _ _
  | build =>
    have hfreq : (s.withArgs a0 a1 a2 a3).freq = s.freq := rfl
    have hw : (s.withArgs a0 a1 a2 a3).freqWritten = s.freqWritten := rfl
    simp only [exec, execBuild, hw, hfreq]
    split
    · split
      · exact raised s.dropTree _
      · exact completed (s.installTree _) _ _
    · rfl
  | gencodes =>
    simp only [exec, execGencodes, hcheck, hview.arena]
    split
    · exact raised s _
    · split
      · rfl
      · exact completed (s.installCodes _) _ _
  | rdcode sym =>
    simp only [exec, execRdcode, hcheck, hview.larg2, hview.code]
    split
    · exact raised s _
    · exact written ..
  | encode =>
    simp only [exec, execEncode, hcheck, hview.encodeTotal, hview.encodeBits, hview.larg1, hview.larg2]
    split
    · exact raised s _
    · split
      · exact raised s _
      · split
        · exact raised s _
        · exact written ..
  | decode =>
    simp only [exec, execDecode, hcheck, hview.arena, hview.decodeSymbols, hview.larg1, hview.larg2]
    split
    · exact raised s _
    · split
      · rfl
      · split
        · exact raised s _
        · exact written ..
  | save =>
    simp only [exec, execSave, hcheck, State.saveSize, hview.arena, hview.larg2]
    split
    · exact raised s _
    · split
      · rfl
      · exact written ..
  | load =>
    simp only [exec, execLoad, hcheck, hview.parseTree]
    split
    · exact raised s.dropTree _
    · split
      · exact raised s.dropTree _
      · exact completed (s.installTree _) _ _

end WithArgs

/-- Settles O14: a command reads the latched copies alone, and its completion keeps the argument registers. -/
theorem commandsIgnoreArgumentRegisters : Obligations.CommandsIgnoreArgumentRegisters := by
  unfold Obligations.CommandsIgnoreArgumentRegisters
  exact fun i s a0 a1 a2 a3 => exec_withArgs s a0 a1 a2 a3 i

/-! ## The step that runs the latched command -/

/-- A command that ends in an error of its checks touches no device (60_exceptions.md R234). -/
theorem touchesDevice_of_check_err {i : Instr} {s t : State} (h : exec i s = .next t)
    (ht : t.err = 8#4 ∨ t.err = 9#4 ∨ t.err = 11#4 ∨ t.err = 10#4 ∧ (i = .save ∨ ∃ sym, i = .rdcode sym)) :
    touchesDevice i s = false := by
  obtain ⟨e, he⟩ : ∃ e, commandChecks i s = .error e := by
    rcases ht with ht | ht | ht | ⟨ht, hi⟩
    · exact exists_checks_error_of_err (k := .noTree) h ht (by decide) (by cases i <;> simp [errorsInData])
    · exact exists_checks_error_of_err (k := .noCodes) h ht (by decide) (by cases i <;> simp [errorsInData])
    · exact exists_checks_error_of_err (k := .badRegion) h ht (by decide) (by cases i <;> simp [errorsInData])
    · refine exists_checks_error_of_err (k := .outputOverflow) h ht (by decide) ?_
      rcases hi with rfl | ⟨sym, rfl⟩ <;> simp [errorsInData]
  exact touchesDevice_of_check_error he

/-- Settles O5: the turn of the busy engine with the latched command decoded. -/
theorem stepRunsLatchedCommand : Obligations.StepRunsLatchedCommand := by
  unfold Obligations.StepRunsLatchedCommand
  refine ⟨fun s rest i hb hd ht hin => ?_, fun s i hb hd ht hin => ?_, fun s t i hb hd hin h ht => ?_, fun s i ht => ?_⟩
  · rw [step_of_engine hin]
    exact engineTurn_eq_exec hb hd (((SameView.with_inputs s rest).touchesDevice i).trans ht)
  · rw [step_of_no_input hin, engineTurn_eq_exec hb hd ht]
  · rw [step_of_no_input hin, engineTurn_eq_exec hb hd (touchesDevice_of_check_err h ht), h]
  · have hissue : s.withFetchWord 32 (encode i).toNat =
        { s.issue (encode i) with inputs := .engine :: (s.issue (encode i)).inputs } := by
      have hw : BitVec.ofNat 32 ((encode i).toNat % 2 ^ 32) = encode i := by
        rw [Nat.mod_eq_of_lt (encode i).isLt, BitVec.ofNat_toNat, BitVec.setWidth_eq]
      rw [State.withFetchWord, issueTableWord, hw]
      rfl
    rw [hissue, step_of_engine rfl]
    exact engineTurn_eq_exec rfl (decode_encode i) ht

end Sys2Proof.Machine

/-! The frame of every command, the bytes it may write, and that it completes (10_state.md R47, 20_memory.md R63,
70_reset_and_hazards.md R265, R275). -/

namespace Sys2Proof.Machine

/-! ## The frame -/

/-- Only CLRFREQ, SETFREQ and LDFREQ write the frequency table. -/
theorem exec_keepsFreq {i : Instr} {s t : State} (h : exec i s = .next t) (hset : ∀ sym, i ≠ .setfreq sym)
    (hclr : i ≠ .clrfreq) (hld : i ≠ .ldfreq) : KeepsFreq s t := by
  cases i with
  | clrfreq => exact absurd rfl hclr
  | setfreq sym => exact absurd rfl (hset sym)
  | ldfreq => exact absurd rfl hld
  | build => rcases execBuild_cases h with ⟨e, rfl⟩ | ⟨r0, r1, -, rfl⟩ <;> exact ⟨rfl, rfl⟩
  | gencodes => rcases execGencodes_cases h with ⟨e, rfl⟩ | ⟨tr, r0, r1, -, -, rfl⟩ <;> exact ⟨rfl, rfl⟩
  | rdcode sym => exact (execRdcode_keepsTables h).1
  | encode => exact (execEncode_keepsTables h).1
  | decode => exact (execDecode_keepsTables h).1
  | save => exact (execSave_keepsTables h).1
  | load => rcases execLoad_cases h with ⟨e, rfl⟩ | ⟨ld, r0, r1, -, rfl⟩ <;> exact ⟨rfl, rfl⟩

/-- A command that writes no output leaves the memory as it is. -/
theorem exec_mem_cases {i : Instr} {s t : State} (h : exec i s = .next t) :
    (∃ o, Produces i s o ∧ t = o.write (destRegion i s).base s) ∨ t.mem = s.mem := by
  rcases exec_cases h with ho | ⟨e, -, rfl⟩ | ⟨hmem, -⟩
  · exact .inl ho
  · right
    split <;> rfl
  · exact .inr hmem

/-- RDCODE, ENCODE, DECODE and SAVE alone produce an output. -/
theorem Produces.writes {i : Instr} {s : State} {o : Output} (h : Produces i s o) :
    (∃ sym, i = .rdcode sym) ∨ i = .encode ∨ i = .decode ∨ i = .save := by
  obtain ⟨-, h⟩ := h
  cases i with
  | rdcode sym => exact .inl ⟨sym, rfl⟩
  | encode => exact .inr (.inl rfl)
  | decode => exact .inr (.inr (.inl rfl))
  | save => exact .inr (.inr (.inr rfl))
  | _ => exact h.elim

/-- Settles O50: the completions keep the control state, and each command's own writes are listed by `exec_cases`. -/
theorem commandsWriteOnlyTheirState : Obligations.CommandsWriteOnlyTheirState := by
  unfold Obligations.CommandsWriteOnlyTheirState
  intro i s t h
  refine ⟨(exec_ends h).idle_done_keepsControl.2.2, exec_keepsFreq h, exec_keepsTree h,
    fun hg hb hl => (exec_keepsTree_keepsCodes h hg hb hl).2.1, fun hrd hen hde hsv => ?_⟩
  rcases exec_mem_cases h with ⟨o, ho, -⟩ | hmem
  · rcases ho.writes with ⟨sym, hi⟩ | hi | hi | hi
    · exact absurd hi (hrd sym)
    · exact absurd hi hen
    · exact absurd hi hde
    · exact absurd hi hsv
  · exact fun a => congrArg (·.read a) hmem

/-- A command that fails a check and is no LOAD changes nothing but the registers of its error. -/
theorem exec_frame_of_checks_error {i : Instr} {s : State} {e : CmdError} (hl : i ≠ .load)
    (h : commandChecks i s = .error e) :
    ∃ t, exec i s = .next t ∧ Raised s t e ∧ KeepsTables s t ∧ KeepsMemory s t ∧ KeepsControl s t :=
  ⟨s.raiseError e, by rw [exec_of_checks_error h, if_neg hl], s.raiseError_frame e⟩

/-- Settles O33: the precondition is the first check of each of these commands. -/
theorem missingTreeOrCodesIsRaised : Obligations.MissingTreeOrCodesIsRaised := by
  unfold Obligations.MissingTreeOrCodesIsRaised
  refine fun s => ⟨fun hv i hi => ?_, fun hv i sym hi => ?_⟩
  · have hcheck : checkTree s = .error ⟨.noTree, 0#32, 0#11⟩ := by simp [checkTree, hv]
    rcases hi with rfl | rfl | rfl <;>
      exact exec_frame_of_checks_error (by decide) (by simp only [commandChecks, checksOf, hcheck, firstError])
  · have hcheck : checkCodes s = .error ⟨.noCodes, 0#32, 0#11⟩ := by simp [checkCodes, hv]
    rcases hi with rfl | rfl <;>
      exact exec_frame_of_checks_error (by simp) (by simp only [commandChecks, checksOf, hcheck, firstError])

/-! ## The bytes a command may write -/

/-! ### The checks of each command that reads or writes memory -/

theorem Region.wraps_eq_false_iff_fits {r : Region} : r.wraps = false ↔ r.Fits := Region.wraps_eq_false_iff

theorem checkRegions_eq_ok_iff_regionsLegal {src dst : Region} :
    checkRegions src dst = .ok () ↔ src.Fits ∧ dst.Fits ∧ src.Apart dst := by
  rw [checkRegions_eq_ok_iff, Region.wraps_eq_false_iff, Region.wraps_eq_false_iff, Region.overlaps_eq_false_iff]

theorem commandChecks_ldfreq_eq_ok_iff {s : State} :
    commandChecks .ldfreq s = .ok () ↔ (sourceRegion .ldfreq s).Fits := by
  simp [commandChecks, checksOf, firstError_eq_ok_iff, checkSource_eq_ok_iff, Region.wraps_eq_false_iff_fits]

theorem commandChecks_load_eq_ok_iff {s : State} :
    commandChecks .load s = .ok () ↔ (sourceRegion .load s).Fits := by
  simp [commandChecks, checksOf, firstError_eq_ok_iff, checkSource_eq_ok_iff, Region.wraps_eq_false_iff_fits]

theorem commandChecks_rdcode_eq_ok_iff {s : State} {sym : Sym} :
    commandChecks (.rdcode sym) s = .ok () ↔
      s.codesValid = true ∧ (destRegion (.rdcode sym) s).Fits ∧ 32 ≤ s.larg3.toNat := by
  simp [commandChecks, checksOf, firstError_eq_ok_iff, checkDest_eq_ok_iff, Region.wraps_eq_false_iff_fits]

theorem commandChecks_save_eq_ok_iff {s : State} :
    commandChecks .save s = .ok () ↔
      s.treeValid = true ∧ (destRegion .save s).Fits ∧ s.saveSize ≤ s.larg3.toNat := by
  simp [commandChecks, checksOf, firstError_eq_ok_iff, checkDest_eq_ok_iff, Region.wraps_eq_false_iff_fits]

theorem commandChecks_encode_eq_ok_iff {s : State} :
    commandChecks .encode s = .ok () ↔ s.codesValid = true ∧ RegionsLegal .encode s := by
  simp [commandChecks, checksOf, firstError_eq_ok_iff, checkRegions_eq_ok_iff_regionsLegal]

theorem commandChecks_decode_eq_ok_iff {s : State} :
    commandChecks .decode s = .ok () ↔ s.treeValid = true ∧ RegionsLegal .decode s := by
  simp [commandChecks, checksOf, firstError_eq_ok_iff, checkRegions_eq_ok_iff_regionsLegal]

theorem commandChecks_gencodes_eq_ok_iff {s : State} : commandChecks .gencodes s = .ok () ↔ s.treeValid = true := by
  simp [commandChecks, checksOf, firstError_eq_ok_iff]

/-! ### The output in its region -/

/-- The checks of a command passed, so its destination region does not wrap. -/
theorem destRegion_fits_of_checks_ok {i : Instr} {s : State} (h : commandChecks i s = .ok ()) :
    (destRegion i s).Fits := by
  cases i with
  | rdcode sym => exact (commandChecks_rdcode_eq_ok_iff.1 h).2.1
  | save => exact (commandChecks_save_eq_ok_iff.1 h).2.1
  | encode => exact (commandChecks_encode_eq_ok_iff.1 h).2.2.1
  | decode => exact (commandChecks_decode_eq_ok_iff.1 h).2.2.1
  | _ => exact .inl rfl

/-- SAVE needs the bytes of the serialized tree (43_tree_codec.md R161). -/
theorem HoldsTree.saveSize {s : State} {t : HuffTree} (h : HoldsTree s.arena t) :
    s.saveSize = t.serialize.length := by
  rw [State.saveSize, h.count, t.serialize_length]

theorem codeImage_length (e : CodeEntry) : (codeImage e).length = 32 := by simp [codeImage]

/-- DECODE collects no more symbols than there is room for. -/
theorem decodeSymbols_length_le {s : State} {t : HuffTree} {out : List Sym} (h : decodeSymbols s t = .ok out) :
    out.length ≤ s.larg3.toNat := by
  unfold decodeSymbols at h
  split at h <;> cases h
  rename_i hwalk
  obtain ⟨-, emitted, -, -, hle⟩ := decodeWalk_ok hwalk
  exact hle (Nat.zero_le _)

/-- The bits ENCODE packs fit in the destination. -/
theorem packBits_length_le_of_encode {s : State} {total : Nat} {bits : List Bool} (htotal : encodeTotal s = .ok total)
    (hbits : encodeBits s s.larg1.toNat 0 = .ok bits) : bits.length = total ∧ (packBits bits).length ≤ s.larg3.toNat := by
  obtain ⟨-, -, ht, hle⟩ := encodeTotal_eq_ok_iff.1 htotal
  obtain ⟨-, hb⟩ := encodeBits_eq_ok_iff.1 hbits
  have hlen : bits.length = total := by rw [ht, hb, encodedBits, regionBytes_eq_bytesFrom]
  refine ⟨hlen, ?_⟩
  unfold encodeLimit at hle
  rw [packBits_length, ceil8]
  omega

/-- The output of a command fits in its destination region. -/
theorem Produces.length_le {i : Instr} {s : State} {o : Output} (ht : TreeLegal s) (h : Produces i s o) :
    o.bytes.length ≤ (destRegion i s).len := by
  obtain ⟨hc, h⟩ := h
  cases i with
  | rdcode sym =>
    subst h
    exact (codeImage_length _).le
  | encode =>
    obtain ⟨total, bits, htotal, hbits, rfl⟩ := h
    exact (packBits_length_le_of_encode htotal hbits).2
  | decode =>
    obtain ⟨t, out, -, hout, rfl⟩ := h
    exact decodeSymbols_length_le hout
  | save =>
    obtain ⟨t, htree, rfl⟩ := h
    obtain ⟨hv, -, hroom⟩ := commandChecks_save_eq_ok_iff.1 hc
    obtain ⟨u, hu⟩ := ht hv
    obtain rfl := hu.eq_of_tree htree
    exact hu.saveSize ▸ hroom
  | _ => exact h.elim

/-- Settles O51: an output fits in the destination region, and a command that writes none leaves the memory alone. -/
theorem commandsWriteOnlyTheirDestination : Obligations.CommandsWriteOnlyTheirDestination := by
  unfold Obligations.CommandsWriteOnlyTheirDestination
  intro i s t ht h
  rcases exec_mem_cases h with ⟨o, ho, rfl⟩ | hmem
  · exact writeAndComplete_keepsMemoryOutside _ _ s (ho.length_le ht) (destRegion_fits_of_checks_ok ho.1)
  · exact fun a _ => congrArg (·.read a) hmem

/-- A command keeps the memory in canonical form. -/
theorem exec_keeps_memoryLegal {i : Instr} {s t : State} (h : exec i s = .next t) (hs : MemoryLegal s) :
    MemoryLegal t := by
  rcases exec_mem_cases h with ⟨o, -, rfl⟩ | hmem
  · unfold MemoryLegal Output.write
    rcases writeAndComplete_cases (destRegion i s).base o.bytes o.result0 o.result1 s with
      ⟨u, hw, he⟩ | ⟨u, e, hw, he⟩
    · rw [he, State.complete_mem]
      exact writeBytes_wf hw hs
    · rw [he, State.raiseError_mem]
      exact writeBytes_wf hw hs
  · unfold MemoryLegal
    rwa [hmem]

theorem memoryLegal_keptByParts : KeptByParts MemoryLegal where
  inputs _ _ hs := hs
  heard _ _ _ hs := hs
  regWrite s off w hs := by
    rcases s.regWrite_cases off w with h | ⟨lost, done, ie, a0, a1, a2, a3, -, h⟩ <;> rw [h] <;> exact hs
  memWrite _ a v hs := Memory.write_wf a v hs
  busErrors _ _ hs := hs
  reset s hs := freeBytes_wf _ _ _ hs
  illegal _ _ _ hs := hs
  exec _ _ _ _ h hs := exec_keeps_memoryLegal h hs

/-- Settles O54: every write of a byte keeps the canonical form. -/
theorem stepKeepsMemoryCanonical : Obligations.StepKeepsMemoryCanonical := by
  unfold Obligations.StepKeepsMemoryCanonical
  exact fun _ _ => memoryLegal_keptByParts.step

/-! ## Completion -/

/-- A tree that is valid is found by the commands that walk it. -/
theorem TreeLegal.exists_tree {s : State} (h : TreeLegal s) (hv : s.treeValid = true) : ∃ t, s.arena.tree = some t := by
  obtain ⟨t, ht⟩ := h hv
  exact ⟨t, ht.shape⟩

/-- In a state that meets the tree invariant a command reaches a next state, but for the BUILD of an unwritten table. -/
theorem exec_next_or_unwritten (i : Instr) {s : State} (ht : TreeLegal s) :
    (∃ t, exec i s = .next t) ∨ i = .build ∧ s.freqWritten = false ∧ exec i s = .fault .unwrittenFrequency := by
  by_cases hb : i = .build
  · subst hb
    cases hw : s.freqWritten with
    | false => exact .inr ⟨rfl, rfl, by simp [exec, execBuild, hw]⟩
    | true =>
      left
      simp only [exec, execBuild, hw, if_true]
      split <;> exact ⟨_, rfl⟩
  · left
    cases hc : commandChecks i s with
    | error e => exact ⟨_, exec_of_checks_error hc⟩
    | ok u =>
      cases i with
      | build => exact absurd rfl hb
      | gencodes =>
        obtain ⟨t, htree⟩ := ht.exists_tree (commandChecks_gencodes_eq_ok_iff.1 hc)
        simp only [exec, execGencodes, hc, htree]
        exact ⟨_, rfl⟩
      | save =>
        obtain ⟨t, htree⟩ := ht.exists_tree (commandChecks_save_eq_ok_iff.1 hc).1
        simp only [exec, execSave, hc, htree]
        exact ⟨_, rfl⟩
      | decode =>
        obtain ⟨t, htree⟩ := ht.exists_tree (commandChecks_decode_eq_ok_iff.1 hc).1
        simp only [exec, execDecode, hc, htree]
        split <;> exact ⟨_, rfl⟩
      | encode =>
        simp only [exec, execEncode, hc]
        split
        · exact ⟨_, rfl⟩
        · split <;> exact ⟨_, rfl⟩
      | rdcode sym =>
        simp only [exec, execRdcode, hc]
        exact ⟨_, rfl⟩
      | ldfreq =>
        unfold exec execLdfreq
        rw [hc]
        dsimp only
        split <;> exact ⟨_, rfl⟩
      | load =>
        simp only [exec, execLoad, hc]
        split <;> exact ⟨_, rfl⟩
      | clrfreq => exact ⟨_, rfl⟩
      | setfreq sym => exact ⟨_, rfl⟩

/-- No completion writes a code above 11 to STATUS.ERR (60_exceptions.md R230). -/
theorem Ends.err_le {s t : State} (h : Ends s t) : t.err ≤ 11#4 := by
  obtain ⟨u, -, ⟨r0, r1, rfl⟩ | ⟨e, rfl⟩⟩ := h
  · simp
  · exact e.kind.code_le

/-- Settles O53: a command that does not fault ends in one of the two completions. -/
theorem everyCommandCompletes : Obligations.EveryCommandCompletes := by
  unfold Obligations.EveryCommandCompletes
  intro i s ht hw
  rcases exec_next_or_unwritten i ht with ⟨t, h⟩ | ⟨hi, hno, -⟩
  · obtain ⟨hidle, hdone, -⟩ := (exec_ends h).idle_done_keepsControl
    exact ⟨t, h, hidle, hdone, (exec_ends h).err_le⟩
  · rw [hw hi] at hno
    cases hno

/-- No turn of the engine finds an arena without a tree. -/
theorem engineTurn_ne_arenaHoldsNoTree {s : State} (ht : TreeLegal s) : engineTurn s ≠ .fault .arenaHoldsNoTree := by
  intro h
  rcases engineTurn_cases s with ⟨-, he⟩ | ⟨-, r, -, he⟩ | ⟨-, i, -, ⟨-, he⟩ | ⟨-, he⟩⟩
  · cases he.symm.trans h
  · cases he.symm.trans h
  · cases he.symm.trans h
  · rcases exec_next_or_unwritten i ht with ⟨t, hn⟩ | ⟨-, -, hf⟩
    · cases hn.symm.trans (he.symm.trans h)
    · cases hf.symm.trans (he.symm.trans h)

theorem hostAccess_ne_arenaHoldsNoTree (op : HostOp) (s : State) : hostAccess op s ≠ .fault .arenaHoldsNoTree := by
  intro h
  cases op with
  | regRead addr width => simp only [hostAccess] at h; split at h <;> cases h
  | regWrite addr width w => simp only [hostAccess] at h; split at h <;> cases h
  | memRead a =>
    simp only [hostAccess] at h
    split at h
    · cases h
    · split at h <;> cases h
  | memWrite a v =>
    simp only [hostAccess] at h
    split at h
    · cases h
    · split at h <;> cases h
  | irqLook => cases h

theorem takeInput_ne_arenaHoldsNoTree {i : Input} {s : State} (ht : TreeLegal s) :
    takeInput i s ≠ .fault .arenaHoldsNoTree := by
  cases i with
  | engine => exact engineTurn_ne_arenaHoldsNoTree ht
  | host op => exact hostAccess_ne_arenaHoldsNoTree op s
  | hostWithEngine op =>
    intro h
    simp only [takeInput, hostThenEngine] at h
    split at h
    · rename_i u hu
      split at h
      · cases h
      · exact engineTurn_ne_arenaHoldsNoTree (treeLegal_keptByParts.hostAccess hu ht) h
    · rename_i f hf
      cases h
      exact hostAccess_ne_arenaHoldsNoTree op s hf
    · cases h
  | reset => intro h; cases h
  | setBusErrors regions => intro h; simp only [takeInput] at h; split at h <;> cases h

/-- Settles O59: the engine's turn faults over a device or an unwritten table alone, and a host access over the
exclusion. -/
theorem legalStatesHoldTheirTree : Obligations.LegalStatesHoldTheirTree := by
  unfold Obligations.LegalStatesHoldTheirTree
  intro s hs
  rcases step_cases s with ⟨-, he⟩ | ⟨i, rest, -, he⟩ <;> rw [he]
  · exact engineTurn_ne_arenaHoldsNoTree hs.tree
  · exact takeInput_ne_arenaHoldsNoTree hs.tree

end Sys2Proof.Machine

/-! The first failing write, and the memory after an error (60_exceptions.md R230, R231, R237, 20_memory.md R64). -/

namespace Sys2Proof.Machine

/-! ## A region write, byte by byte -/

/-- The memory with bytes stored in a region from offset `k` on. -/
def storeBytes (base : Addr) : Nat → List Byte → Memory → Memory
  | _, [], m => m
  | k, v :: rest, m => storeBytes base (k + 1) rest (m.write (addrAt base k) v)

theorem storeBytes_append (base : Addr) (k : Nat) (xs ys : List Byte) (m : Memory) :
    storeBytes base k (xs ++ ys) m = storeBytes base (k + xs.length) ys (storeBytes base k xs m) := by
  induction xs generalizing k m with
  | nil => rfl
  | cons v xs ih => rw [List.cons_append, storeBytes, ih, storeBytes, List.length_cons, Nat.add_right_comm, Nat.add_assoc]

/-- Storing bytes leaves every other address alone. -/
theorem storeBytes_outside {base a : Addr} {k : Nat} {bytes : List Byte} (m : Memory)
    (h : ∀ i, i < bytes.length → a ≠ addrAt base (k + i)) : (storeBytes base k bytes m).read a = m.read a := by
  induction bytes generalizing k m with
  | nil => rfl
  | cons v rest ih =>
    have h0 : a ≠ addrAt base k := h 0 (by simp)
    rw [storeBytes, ih _ fun i hi => ?_, Memory.read_write_ne _ h0]
    have := h (i + 1) (by simpa using hi)
    rwa [Nat.add_right_comm, Nat.add_assoc]

/-- With no bus error a region write stores its bytes. -/
theorem writeBytes_eq_storeBytes {base : Addr} {k : Nat} {bytes : List Byte} {s : State}
    (h : ∀ i, i < bytes.length → s.platform.busError (addrAt base (k + i)) .write = false) :
    writeBytes base k bytes s = ({ s with mem := storeBytes base k bytes s.mem }, none) := by
  induction bytes generalizing k s with
  | nil => rfl
  | cons v rest ih =>
    have h0 : s.platform.busError (addrAt base k) .write = false := h 0 (by simp)
    rw [writeBytes_cons _ _ h0, ih fun i hi => ?_]
    · rfl
    · have := h (i + 1) (by simpa using hi)
      rwa [Nat.add_right_comm, Nat.add_assoc]

/-- A region write stops at the first failing byte, with the bytes before it stored (93_implementation_defined.md U4). -/
theorem writeBytes_eq_of_first_error {base : Addr} {k i : Nat} {bytes : List Byte} {s : State} (hi : i < bytes.length)
    (hok : ∀ j, j < i → s.platform.busError (addrAt base (k + j)) .write = false)
    (herr : s.platform.busError (addrAt base (k + i)) .write = true) :
    writeBytes base k bytes s =
      ({ s with
          mem := (storeBytes base k (bytes.take i) s.mem).write (addrAt base (k + i)) (Config.freeByte s.freeCount),
          freeCount := s.freeCount + 1 },
        some ⟨.ioFailure, addrAt base (k + i), 1#11⟩) := by
  induction bytes generalizing k i s with
  | nil => exact absurd hi (Nat.not_lt_zero _)
  | cons v rest ih =>
    cases i with
    | zero => exact writeBytes_cons_of_busError v rest herr
    | succ i =>
      have h0 : s.platform.busError (addrAt base k) .write = false := hok 0 (by simp)
      rw [← Nat.add_assoc, Nat.add_right_comm] at herr ⊢
      rw [writeBytes_cons _ _ h0]
      refine ih (s := { s with mem := s.mem.write (addrAt base k) v }) (by simpa using hi) (fun j hj => ?_) herr
      have := hok (j + 1) (by omega)
      rwa [Nat.add_right_comm, Nat.add_assoc]

/-- A region write that raises an error has a first failing byte. -/
theorem exists_first_error_of_writeBytes {base : Addr} {bytes : List Byte} {s t : State} {e : CmdError}
    (h : writeBytes base 0 bytes s = (t, some e)) :
    ∃ i, i < bytes.length ∧ NoBusError s base i .write ∧ s.platform.busError (addrAt base i) .write = true := by
  have hex : ∃ i, i < bytes.length ∧ s.platform.busError (addrAt base i) .write = true := by
    obtain ⟨i, hi, -, hb⟩ := writeBytes_error h
    exact ⟨i, hi, by rwa [Nat.zero_add] at hb⟩
  classical
  obtain ⟨hi, hb⟩ := Nat.find_spec hex
  refine ⟨Nat.find hex, hi, fun j hj => ?_, hb⟩
  have hmin := Nat.find_min hex hj
  rw [not_and, Bool.not_eq_true] at hmin
  exact hmin (by omega)

/-! ## The same command with no bus error -/

/-- The state on a platform with no bus error. -/
def State.quiet (s : State) : State := { s with platform := { s.platform with busErrors := [] } }

theorem State.quiet_busError (s : State) (a : Addr) (kind : AccessKind) : s.quiet.platform.busError a kind = false := rfl

theorem commandChecks_quiet (i : Instr) (s : State) : commandChecks i s.quiet = commandChecks i s := by
  cases i <;> rfl

/-- DECODE's pass 1 succeeds exactly when it can read its bits and they are the codes of symbols for which there is
room. -/
theorem decodeSymbols_eq_ok_iff {s : State} {t : HuffTree} {out : List Sym} :
    decodeSymbols s t = .ok out ↔
      BitsReadable s s.larg0 0 s.larg1.toNat ∧
        walk t (streamBits s s.larg0 s.larg1.toNat) .atRoot = some (.atRoot, out) ∧ out.length ≤ s.larg3.toNat := by
  rw [streamBits_eq_bitsFrom]
  constructor
  · intro h
    unfold decodeSymbols at h
    split at h <;> cases h
    rename_i hwalk
    obtain ⟨hr, emitted, hw, hout, hle⟩ := decodeWalk_ok hwalk
    rw [List.nil_append] at hout
    exact ⟨hr, hout ▸ hw, hle (Nat.zero_le _)⟩
  · rintro ⟨hr, hw, hle⟩
    have h := decodeWalk_add (out := []) (cap := s.larg3.toNat) 0 hr hw (by simpa using hle)
    rw [Nat.add_zero, List.nil_append, decodeWalk] at h
    rw [decodeSymbols, h]

/-- An output is produced on a platform with no bus error, too. -/
theorem Produces.quiet {i : Instr} {s : State} {o : Output} (h : Produces i s o) : Produces i s.quiet o := by
  obtain ⟨hc, h⟩ := h
  refine ⟨(commandChecks_quiet i s).trans hc, ?_⟩
  cases i with
  | rdcode sym => exact h
  | save => exact h
  | encode =>
    obtain ⟨total, bits, htotal, hbits, ho⟩ := h
    obtain ⟨-, hcode, ht, hle⟩ := encodeTotal_eq_ok_iff.1 htotal
    exact ⟨total, bits, encodeTotal_eq_ok_iff.2 ⟨fun _ _ => rfl, hcode, ht, hle⟩,
      encodeBits_eq_ok_iff.2 ⟨fun _ _ _ => rfl, (encodeBits_eq_ok_iff.1 hbits).2⟩, ho⟩
  | decode =>
    obtain ⟨t, out, ht, hout, ho⟩ := h
    exact ⟨t, out, ht, decodeSymbols_eq_ok_iff.2 ⟨fun _ _ _ => rfl, (decodeSymbols_eq_ok_iff.1 hout).2⟩, ho⟩
  | _ => exact h.elim

/-- A command whose reads meet no bus error produces what it does on a platform with none. -/
theorem Produces.of_quiet {i : Instr} {s : State} {o : Output} (h : Produces i s.quiet o)
    (hr : NoBusError s (sourceRegion i s).base (sourceRegion i s).len .read) : Produces i s o := by
  obtain ⟨hc, h⟩ := h
  refine ⟨(commandChecks_quiet i s).symm.trans hc, ?_⟩
  cases i with
  | rdcode sym => exact h
  | save => exact h
  | encode =>
    obtain ⟨total, bits, htotal, hbits, ho⟩ := h
    obtain ⟨-, hcode, ht, hle⟩ := encodeTotal_eq_ok_iff.1 htotal
    exact ⟨total, bits, encodeTotal_eq_ok_iff.2 ⟨hr, hcode, ht, hle⟩,
      encodeBits_eq_ok_iff.2 ⟨readable_iff_noBusError.2 hr, (encodeBits_eq_ok_iff.1 hbits).2⟩, ho⟩
  | decode =>
    obtain ⟨t, out, ht, hout, ho⟩ := h
    exact ⟨t, out, ht, decodeSymbols_eq_ok_iff.2 ⟨bitsReadable_of_noBusError hr le_rfl,
      (decodeSymbols_eq_ok_iff.1 hout).2⟩, ho⟩
  | _ => exact h.elim

/-- With no bus error the whole output is stored. -/
theorem Output.write_quiet_mem (o : Output) (base : Addr) (s : State) :
    (o.write base s.quiet).mem = storeBytes base 0 o.bytes s.mem ∧ (o.write base s.quiet).result0 = o.result0 := by
  have h : writeBytes base 0 o.bytes s.quiet = ({ s.quiet with mem := storeBytes base 0 o.bytes s.mem }, none) :=
    writeBytes_eq_storeBytes fun i _ => s.quiet_busError _ _
  rw [Output.write, writeAndComplete, h]
  exact ⟨rfl, rfl⟩

/-! ## The failing write -/

/-- The write of an output that fails first at byte `i` ends in IoFailure there, with the bytes before it stored. -/
theorem Output.write_of_first_error {o : Output} {base : Addr} {s : State} {i : Nat} (hi : i < o.bytes.length)
    (hok : NoBusError s base i .write) (herr : s.platform.busError (addrAt base i) .write = true) :
    Raised s (o.write base s) ⟨.ioFailure, addrAt base i, 1#11⟩ ∧
      (o.write base s).mem =
        (storeBytes base 0 (o.bytes.take i) s.mem).write (addrAt base i) (Config.freeByte s.freeCount) := by
  have h := writeBytes_eq_of_first_error (base := base) (k := 0) (s := s) hi
    (fun j hj => by rw [Nat.zero_add]; exact hok j hj) (by rwa [Nat.zero_add])
  rw [Nat.zero_add] at h
  rw [Output.write, writeAndComplete, h]
  exact ⟨⟨rfl, rfl, rfl, rfl, rfl, rfl, rfl⟩, rfl⟩

/-- An output is as long as RESULT0 says, and RDCODE's as its region (42_code_generator.md R144). -/
theorem Produces.lt_length {i : Instr} {s : State} {o : Output} {k : Nat} (ht : TreeLegal s) (h : Produces i s o)
    (hk : k < (destRegion i s).len) (hres : (∀ sym, i ≠ .rdcode sym) → k < o.result0.toNat) : k < o.bytes.length := by
  have of_result : ∀ n : Nat, k < (BitVec.ofNat 32 n).toNat → k < n := fun n h => by
    rw [BitVec.toNat_ofNat] at h
    omega
  obtain ⟨hc, h⟩ := h
  cases i with
  | rdcode sym =>
    subst h
    rwa [codeImage_length]
  | encode =>
    obtain ⟨total, bits, -, -, rfl⟩ := h
    exact of_result _ (hres (by simp))
  | decode =>
    obtain ⟨t, out, -, -, rfl⟩ := h
    exact of_result _ (hres (by simp))
  | save =>
    obtain ⟨t, htree, rfl⟩ := h
    obtain ⟨u, hu⟩ := ht (commandChecks_save_eq_ok_iff.1 hc).1
    obtain rfl := hu.eq_of_tree htree
    exact hu.saveSize ▸ of_result _ (hres (by simp))
  | _ => exact h.elim

/-- The first failing write of a command that would succeed raises IoFailure at its address (20_memory.md R64). -/
theorem exec_raises_of_first_failing_write {i : Instr} {s u : State} {k : Nat} (ht : TreeLegal s)
    (h : exec i s.quiet = .next u) (hu : u.err = 0#4)
    (hr : NoBusError s (sourceRegion i s).base (sourceRegion i s).len .read) (hk : k < (destRegion i s).len)
    (hres : (∀ sym, i ≠ .rdcode sym) → k < u.result0.toNat) (hok : NoBusError s (destRegion i s).base k .write)
    (herr : s.platform.busError (addrAt (destRegion i s).base k) .write = true) :
    ∃ t, exec i s = .next t ∧ Raised s t ⟨.ioFailure, addrAt (destRegion i s).base k, 1#11⟩ ∧ KeepsTables s t ∧
      KeepsControl s t := by
  have hdest : destRegion i s.quiet = destRegion i s := by cases i <;> rfl
  rcases exec_cases h with ⟨o, ho, rfl⟩ | ⟨e, -, rfl⟩ | ⟨-, ⟨-, hlen⟩ | ⟨v, e, -, -, rfl⟩⟩
  · have ho := ho.of_quiet hr
    rw [hdest, (o.write_quiet_mem _ s).2] at hres
    exact ⟨_, exec_of_produces ho, (Output.write_of_first_error (ho.lt_length ht hk hres) hok herr).1,
      writeAndComplete_keepsTables .., (writeAndComplete_ends ..).idle_done_keepsControl.2.2⟩
  · exact absurd hu e.kind.code_ne_zero
  · rw [hdest] at hlen
    omega
  · exact absurd hu e.kind.code_ne_zero

/-! ## The memory after an error -/

/-- After a write that failed at `i`, an address below it reads as after the whole output, one above it as before. -/
theorem Output.write_read_of_first_error {o : Output} {base : Addr} {s : State} {i : Nat} (hi : i < o.bytes.length)
    (hfit : base.toNat + o.bytes.length ≤ 2 ^ 32) (hok : NoBusError s base i .write)
    (herr : s.platform.busError (addrAt base i) .write = true) :
    (∀ a : Addr, a < addrAt base i → (o.write base s).mem.read a = (o.write base s.quiet).mem.read a) ∧
      ∀ a : Addr, addrAt base i < a → (o.write base s).mem.read a = s.mem.read a := by
  have hmem := (Output.write_of_first_error hi hok herr).2
  have hquiet := (o.write_quiet_mem base s).1
  have hpos : ∀ j, j < o.bytes.length → (addrAt base j).toNat = base.toNat + j := fun j hj => addrAt_toNat (by omega)
  refine ⟨fun a ha => ?_, fun a ha => ?_⟩
  · have hne : ∀ j, i ≤ j → j < o.bytes.length → a ≠ addrAt base j := fun j hij hj he => by
      have := BitVec.lt_def.1 ha
      rw [he, hpos i hi, hpos j hj] at this
      omega
    rw [hmem, Memory.read_write_ne _ (hne i le_rfl hi), hquiet]
    conv_rhs => rw [← List.take_append_drop i o.bytes]
    rw [storeBytes_append, List.length_take_of_le hi.le]
    refine (storeBytes_outside _ fun j hj => ?_).symm
    rw [List.length_drop] at hj
    exact hne _ (by omega) (by omega)
  · have hne : ∀ j, j ≤ i → a ≠ addrAt base j := fun j hij he => by
      have := BitVec.lt_def.1 ha
      rw [he, hpos i hi, hpos j (by omega)] at this
      omega
    rw [hmem, Memory.read_write_ne _ (hne i le_rfl), storeBytes_outside]
    intro j hj
    rw [List.length_take] at hj
    exact hne _ (by omega)

/-- What an error leaves of the memory: all of it, but for the bytes up to a failing write (60_exceptions.md R237). -/
theorem exec_error_memory {i : Instr} {s t u : State} (ht : TreeLegal s) (hu : exec i s.quiet = .next u)
    (h : exec i s = .next t) (herr : t.err ≠ 0#4) :
    (t.err ≠ 6#4 ∨ t.errData ≠ 1#32 → KeepsMemory s t) ∧
      (t.err = 6#4 → t.errData = 1#32 →
        (∀ a : Addr, a < t.errPos → t.mem.read a = u.mem.read a) ∧
        ∀ a : Addr, t.errPos < a → t.mem.read a = s.mem.read a) := by
  have unwritten : ∀ {v : State} {e : CmdError}, (v.raiseError e).mem = s.mem →
      (e.kind = .ioFailure → e.data = 0#11) →
      ((v.raiseError e).err ≠ 6#4 ∨ (v.raiseError e).errData ≠ 1#32 → KeepsMemory s (v.raiseError e)) ∧
      ((v.raiseError e).err = 6#4 → (v.raiseError e).errData = 1#32 →
        (∀ a : Addr, a < (v.raiseError e).errPos → (v.raiseError e).mem.read a = u.mem.read a) ∧
        ∀ a : Addr, (v.raiseError e).errPos < a → (v.raiseError e).mem.read a = s.mem.read a) := by
    intro v e hmem hread
    refine ⟨fun _ a => congrArg (·.read a) hmem, fun h6 h1 => ?_⟩
    have hkind : e.kind = .ioFailure := ErrorKind.code_injective h6
    rw [State.raiseError_errData, hread hkind] at h1
    exact absurd h1 (by decide)
  rcases exec_cases h with ⟨o, ho, rfl⟩ | ⟨e, he, rfl⟩ | ⟨hmem, ⟨h0, -⟩ | ⟨v, e, -, hread, rfl⟩⟩
  · rcases writeAndComplete_cases (destRegion i s).base o.bytes o.result0 o.result1 s with
      ⟨v, -, hv⟩ | ⟨v, e, hw, -⟩
    · exact absurd (congrArg State.err hv) herr
    · obtain ⟨j, hj, hok, hfail⟩ := exists_first_error_of_writeBytes hw
      have hfit : (destRegion i s).base.toNat + o.bytes.length ≤ 2 ^ 32 := by
        have := ho.length_le ht
        have := destRegion_fits_of_checks_ok ho.1
        omega
      have hraised := (Output.write_of_first_error hj hok hfail).1
      obtain ⟨hpos, hdata, hcode, -⟩ := hraised
      have hq : u = o.write (destRegion i s).base s.quiet := by
        have hdest : destRegion i s.quiet = destRegion i s := by cases i <;> rfl
        rw [← hdest]
        exact Host.Outcome.next.inj (hu.symm.trans (exec_of_produces ho.quiet))
      refine ⟨fun hne => ?_, fun _ _ => ?_⟩
      · rw [hcode, hdata] at hne
        exact hne.elim (absurd rfl) (absurd rfl)
      · rw [hpos, hq]
        exact Output.write_read_of_first_error hj hfit hok hfail
  · have hk := kind_of_commandChecks_error he
    refine unwritten (by split <;> rfl) fun hio => ?_
    rw [hio] at hk
    exact absurd hk (by decide)
  · exact absurd h0 herr
  · exact unwritten hmem hread

/-- Settles O52: the first failing byte of an output, and the memory that the bytes before it make. -/
theorem errorsLeaveMemoryAlone : Obligations.ErrorsLeaveMemoryAlone := by
  unfold Obligations.ErrorsLeaveMemoryAlone
  exact fun i s u ht hu => ⟨fun k h0 hr hk hres hok herr => exec_raises_of_first_failing_write ht hu h0 hr hk hres hok herr,
    fun t h herr => exec_error_memory ht hu h herr⟩

end Sys2Proof.Machine

/-! The register map and the values after reset (10_state.md R22, R24, R32 to R36, R48). -/

namespace Sys2Proof.Machine

/-- Every named register has an aligned offset inside the block (10_state.md R22). -/
theorem RegName.offset_aligned (reg : RegName) : reg.offset ≤ 0xFF ∧ reg.offset % 4 = 0 := by
  cases reg <;> decide

/-- A host read of a register other than STATUS answers with its value, and changes nothing else. -/
theorem hostAccess_read_register (s : State) {reg : RegName} (h : reg ≠ .STATUS) :
    hostAccess (.regRead (s.platform.regBase + reg.offset) 32) s =
      .next { s with response := .data (s.regRead reg.offset) } := by
  obtain ⟨hoff, h4⟩ := reg.offset_aligned
  have hne : reg.offset ≠ 0x04 := by
    revert h
    cases reg <;> decide
  rw [hostAccess_regRead_aligned s hoff h4, s.observeRead_of_ne hne]

/-- A host write of a register is taken at its offset. -/
theorem hostAccess_write_register (s : State) (reg : RegName) (w : Word) :
    hostAccess (.regWrite (s.platform.regBase + reg.offset) 32 w) s =
      .next { s.regWrite reg.offset w with response := .ack } :=
  hostAccess_regWrite_aligned s w reg.offset_aligned.1 reg.offset_aligned.2

/-- CTRL is IE in bit 0 (10_state.md R32). -/
theorem State.ctrlWord_eq (s : State) : s.ctrlWord = BitVec.zeroExtend 32 (BitVec.ofBool s.ie) := by
  unfold State.ctrlWord
  cases s.ie <;> rfl

/-- Settles O12: each read is the register's value at its offset. -/
theorem registerMapReads : Obligations.RegisterMapReads := by
  unfold Obligations.RegisterMapReads
  intro s read gives
  have value : ∀ {reg : RegName}, reg ≠ .STATUS → ∀ {v : Word}, s.regRead reg.offset = v → read reg = gives v :=
    fun h v hv => hv ▸ hostAccess_read_register s h
  exact ⟨value (by decide) rfl, hostAccess_regRead_aligned s (by decide) (by decide), value (by decide) s.ctrlWord_eq,
    value (by decide) rfl, value (by decide) rfl, value (by decide) rfl, value (by decide) rfl, value (by decide) rfl,
    value (by decide) rfl, value (by decide) rfl, value (by decide) rfl, value (by decide) rfl⟩

/-- Settles O13: each write is the register block's at its offset. -/
theorem controlAndArgumentWrites : Obligations.ControlAndArgumentWrites := by
  unfold Obligations.ControlAndArgumentWrites
  intro s w write
  exact ⟨hostAccess_write_register s .CTRL w, hostAccess_write_register s .ARG0 w, hostAccess_write_register s .ARG1 w,
    hostAccess_write_register s .ARG2 w, hostAccess_write_register s .ARG3 w⟩

/-- Settles O18: the fields of the state after reset. -/
theorem resetValuesOfTheSpec : Obligations.ResetValuesOfTheSpec := by
  unfold Obligations.ResetValuesOfTheSpec
  refine ⟨rfl, rfl, State.reset_statusWord, by decide, rfl, rfl, rfl, rfl, rfl, rfl, rfl, rfl, State.reset_infoWord, rfl,
    fun sym => ?_⟩
  simp [State.reset]

end Sys2Proof.Machine

/-! The regions that the host must stay out of, until it observes the completion (20_memory.md R71,
70_reset_and_hazards.md R271). -/

namespace Sys2Proof.Machine

/-- A host read breaks the exclusion exactly in the destination region of a closed command. -/
theorem State.readBreaksExclusion_eq_true_iff {s : State} {a : Addr} :
    s.readBreaksExclusion a = true ↔ ∃ r ∈ s.closedRegions, r.dest.contains a = true := by
  simp [State.readBreaksExclusion]

/-- A host write breaks the exclusion exactly in a region of a closed command. -/
theorem State.writeBreaksExclusion_eq_true_iff {s : State} {a : Addr} :
    s.writeBreaksExclusion a = true ↔
      ∃ r ∈ s.closedRegions, r.source.contains a = true ∨ r.dest.contains a = true := by
  simp [State.writeBreaksExclusion]

/-- A command that ends leaves its regions closed (20_memory.md R71(d)). -/
theorem Ends.unobserved {s t : State} {i : Instr} (h : Ends s t) (hd : decode s.lcmd = .ok i) :
    t.unobserved = commandRegions i s :: s.unobserved := by
  have hlatched : s.latchedRegions = [commandRegions i s] := by simp only [State.latchedRegions, hd]
  obtain ⟨u, hu, ht⟩ := h
  have hcongr : u.latchedRegions = s.latchedRegions := by
    rw [hu]
    exact State.latchedRegions_congr rfl rfl rfl rfl rfl
  have hun : u.unobserved = s.unobserved := by rw [hu]
  rcases ht with ⟨r0, r1, rfl⟩ | ⟨e, rfl⟩
  · rw [State.complete_unobserved, hcongr, hlatched, hun, List.singleton_append]
  · rw [State.raiseError_unobserved, hcongr, hlatched, hun, List.singleton_append]

/-- Settles O16: an access faults in a closed region and is served elsewhere; a command's end adds its regions to the
closed ones, and an observation opens all. -/
theorem hostMustStayOutOfRunningRegions : Obligations.HostMustStayOutOfRunningRegions := by
  unfold Obligations.HostMustStayOutOfRunningRegions
  refine ⟨fun s a v hdev => ?_, fun s t i hd h => (exec_ends h).unobserved hd, fun s t h => ?_, fun s t h => ?_⟩
  · intro closed
    have hclosed : ∀ r, closed r ↔ r ∈ s.closedRegions := fun r => State.mem_closedRegions.symm
    simp only [hclosed, hostAccess, hdev, Bool.false_eq_true, if_false]
    refine ⟨fun r hr hin => ?_, fun r hr hin => ?_, fun hout => ?_, fun hout => ?_⟩
    · rw [if_pos (State.writeBreaksExclusion_eq_true_iff.2 ⟨r, hr, hin⟩)]
    · rw [if_pos (State.readBreaksExclusion_eq_true_iff.2 ⟨r, hr, hin⟩)]
    · rw [if_neg fun hc => ?_]
      obtain ⟨r, hr, hin⟩ := State.writeBreaksExclusion_eq_true_iff.1 hc
      simp [hout r hr] at hin
    · rw [if_neg fun hc => ?_]
      obtain ⟨r, hr, hin⟩ := State.readBreaksExclusion_eq_true_iff.1 hc
      simp [hout r hr] at hin
  · rw [hostAccess_regRead_aligned s (by decide) (by decide)] at h
    cases h
    simp only [State.observeRead_unobserved, true_and]
  · cases h
    exact ⟨rfl, s.observeIrq_unobserved⟩

end Sys2Proof.Machine

/-! LDFREQ: the frequency image read word by word, and its first failing byte (40_frequency_table.md R102,
20_memory.md R64, R68). -/

namespace Sys2Proof.Machine

theorem addrAt_addrAt (base : Addr) (m n : Nat) : addrAt (addrAt base m) n = addrAt base (m + n) := by
  simp only [addrAt, BitVec.add_assoc, BitVec.ofNat_add]

/-- Word `k` of a frequency image (20_memory.md R68). -/
def freqWordAt (s : State) (base : Addr) (k : Nat) : Word :=
  littleEndian (byteAt s base (4 * k)) (byteAt s base (4 * k + 1)) (byteAt s base (4 * k + 2)) (byteAt s base (4 * k + 3))

section Words

variable {s : State} {base : Addr}

/-- A word of four readable bytes is read little-endian. -/
theorem readFreqWord_of_readable {k : Nat} (h : Readable s base (4 * k) 4) :
    readFreqWord s (addrAt base (4 * k)) = .ok (freqWordAt s base k) := by
  have read : ∀ m, m < 4 → engineRead s (addrAt base (4 * k + m)) = .ok (byteAt s base (4 * k + m)) :=
    fun m hm => engineRead_of_readable (h _ (by omega) (by omega))
  simp only [readFreqWord, addrAt_addrAt, read 1 (by decide), read 2 (by decide), read 3 (by decide),
    show engineRead s (addrAt base (4 * k)) = .ok (byteAt s base (4 * k)) from read 0 (by decide), freqWordAt]

/-- A word whose byte `m` is the first that cannot be read fails there. -/
theorem readFreqWord_of_busError {k m : Nat} (hm : m < 4) (h : Readable s base (4 * k) m)
    (herr : s.platform.busError (addrAt base (4 * k + m)) .read = true) :
    readFreqWord s (addrAt base (4 * k)) = .error ⟨.ioFailure, addrAt base (4 * k + m), 0#11⟩ := by
  have read : ∀ j, j < m → engineRead s (addrAt base (4 * k + j)) = .ok (byteAt s base (4 * k + j)) :=
    fun j hj => engineRead_of_readable (h _ (by omega) (by omega))
  have fail := engineRead_of_busError herr
  have h0 : addrAt base (4 * k) = addrAt base (4 * k + 0) := rfl
  unfold readFreqWord
  simp only [addrAt_addrAt]
  interval_cases m
  · rw [h0, fail]
  · rw [h0, read 0 (by decide), fail]
  · rw [h0, read 0 (by decide), read 1 (by decide), fail]
  · rw [h0, read 0 (by decide), read 1 (by decide), read 2 (by decide), fail]

/-- An image that can be read gives its words in order. -/
theorem readFreqWords_of_readable {n k : Nat} (h : Readable s base (4 * k) (4 * n)) :
    readFreqWords s base n k = .ok ((List.range' k n).map (freqWordAt s base)) := by
  induction n generalizing k with
  | zero => rfl
  | succ n ih =>
    have hword : Readable s base (4 * k) 4 := fun j hj hjn => h j hj (by omega)
    have hrest : Readable s base (4 * (k + 1)) (4 * n) := fun j hj hjn => h j (by omega) (by omega)
    simp only [readFreqWords, readFreqWord_of_readable hword, ih hrest]
    rfl

/-- An image whose byte `j` is the first that cannot be read fails there. -/
theorem readFreqWords_of_busError {n k j : Nat} (hk : 4 * k ≤ j) (hj : j < 4 * (k + n))
    (h : Readable s base (4 * k) (j - 4 * k)) (herr : s.platform.busError (addrAt base j) .read = true) :
    readFreqWords s base n k = .error ⟨.ioFailure, addrAt base j, 0#11⟩ := by
  induction n generalizing k with
  | zero => omega
  | succ n ih =>
    by_cases hlt : j < 4 * k + 4
    · obtain ⟨m, rfl⟩ := Nat.exists_eq_add_of_le hk
      rw [Nat.add_sub_cancel_left] at h
      simp only [readFreqWords, readFreqWord_of_busError (by omega) h herr]
    · have hword : Readable s base (4 * k) 4 := fun i hi hin => h i hi (by omega)
      have hrest : Readable s base (4 * (k + 1)) (j - 4 * (k + 1)) := fun i hi hin => h i (by omega) (by omega)
      simp only [readFreqWords, readFreqWord_of_readable hword, ih (by omega) (by omega) hrest]

end Words

theorem freqOf_freqTableOf (ws : List Word) (sym : Sym) : freqOf (freqTableOf ws) sym = ws.getD sym.toNat 0#32 := by
  simp [freqOf, freqTableOf]

/-- LDFREQ after its check, by what it read. -/
theorem exec_ldfreq_of_words {s : State} (hc : commandChecks .ldfreq s = .ok ()) :
    (∀ ws, readFreqWords s s.larg0 Config.nsym 0 = .ok ws →
      exec .ldfreq s = .next ((s.writeFreqTable (freqTableOf ws)).complete 0#32 0#32)) ∧
    ∀ e, readFreqWords s s.larg0 Config.nsym 0 = .error e → exec .ldfreq s = .next (s.raiseError e) := by
  unfold exec execLdfreq
  rw [hc]
  refine ⟨fun ws h => ?_, fun e h => ?_⟩ <;> rw [h]

/-- The image of LDFREQ fits when it ends at or below 2^32. -/
theorem commandChecks_ldfreq_of_le {s : State} (h : s.larg0.toNat + 1024 ≤ 2 ^ 32) :
    commandChecks .ldfreq s = .ok () := commandChecks_ldfreq_eq_ok_iff.2 (.inr h)

/-- Settles O21: the 256 words of the image become the table, entry by entry. -/
theorem ldfreqLoadsTheImage : Obligations.LdfreqLoadsTheImage := by
  unfold Obligations.LdfreqLoadsTheImage
  intro s ⟨hfit, hr⟩
  have hwords : readFreqWords s s.larg0 Config.nsym 0 = .ok ((List.range' 0 256).map (freqWordAt s s.larg0)) :=
    readFreqWords_of_readable (n := 256) (k := 0) (readable_iff_noBusError.2 hr)
  refine ⟨_, (exec_ldfreq_of_words (commandChecks_ldfreq_of_le hfit)).1 _ hwords, fun sym => ?_, fun k => ?_,
    s.complete_frame_of_freq_update _ _ _ _⟩
  · have hlt : sym.toNat < ((List.range' 0 256).map (freqWordAt s s.larg0)).length := by simpa using sym.isLt
    rw [State.complete_freq, State.writeFreqTable_freq, freqOf_freqTableOf, List.getD_eq_getElem _ _ hlt,
      List.getElem_map, List.getElem_range', Nat.zero_add, Nat.one_mul]
    rfl
  · simp only [State.complete_fw, State.writeFreqTable_fw, Fin.getElem_fin, Vector.getElem_replicate]

/-- Settles O22: the wrap is LDFREQ's one check, and the first failing byte ends the read. -/
theorem ldfreqFailureKeepsTheTable : Obligations.LdfreqFailureKeepsTheTable := by
  unfold Obligations.LdfreqFailureKeepsTheTable
  refine fun s => ⟨fun hwrap => ?_, fun k hfit hk hr herr => ?_⟩
  · have hwraps : (sourceRegion .ldfreq s).wraps = true := Region.wraps_eq_true_iff.2 ⟨(by decide : 0 < 1024), hwrap⟩
    refine exec_frame_of_checks_error (by decide) ?_
    simp only [commandChecks, checksOf, checkSource, hwraps, if_true, firstError]
    rfl
  · have hwords : readFreqWords s s.larg0 Config.nsym 0 = .error ⟨.ioFailure, addrAt s.larg0 k, 0#11⟩ :=
      readFreqWords_of_busError (n := 256) (k := 0) (Nat.zero_le _) (by omega) (readable_iff_noBusError.2 hr) herr
    exact ⟨_, (exec_ldfreq_of_words (commandChecks_ldfreq_of_le hfit)).2 _ hwords, s.raiseError_frame _⟩

end Sys2Proof.Machine

/-! RDCODE, SAVE and ENCODE: what they write, and ENCODE's first bad byte (42_code_generator.md R144, 43_tree_codec.md
R161, R162, 44_encoder_packer.md R190 to R194). -/

namespace Sys2Proof.Machine

/-- A command that produces an output whose write meets no bus error writes it, and nothing else, and completes. -/
theorem exec_writes_of_produces {i : Instr} {s : State} {o : Output} {base : Addr} {n : Nat} (h : Produces i s o)
    (hbase : (destRegion i s).base = base) (hn : o.bytes.length = n) (hle : n ≤ (destRegion i s).len)
    (hwf : s.mem.wf) (herr : NoBusError s base n .write) :
    ∃ t, exec i s = .next t ∧ regionBytes t base n = o.bytes ∧ Succeeded s t o.result0 o.result1 ∧
      KeepsMemoryOutside base n s t ∧ KeepsTables s t ∧ KeepsControl s t := by
  subst hbase hn
  have hfit := destRegion_fits_of_checks_ok h.1
  exact ⟨_, exec_of_produces h, writeAndComplete_succeeds o.result0 o.result1 herr hwf (by omega)⟩

/-- A byte of a region that holds a list of bytes. -/
theorem byteAt_of_regionBytes {s : State} {base : Addr} {n : Nat} {bytes : List Byte}
    (h : regionBytes s base n = bytes) {k : Nat} (hk : k < n) : byteAt s base k = bytes.getD k 0#8 := by
  subst h
  rw [List.getD_eq_getElem _ _ (by simpa [regionBytes] using hk)]
  simp [regionBytes]

/-! ## RDCODE -/

/-- Stream position `m` of a byte made of positions is that position (00_scope.md R10). -/
theorem positionBit_byteOfPositions (f : Nat → Bool) {m : Nat} (hm : m < 8) :
    positionBit (byteOfPositions f) m = f m := by
  have hor : ∀ (n : Nat) (hn : n ≤ 8), positionBit
      ((List.range n).foldl (fun acc j => acc ||| bitAtPosition (f j) j) 0#8) m = (decide (m < n) && f m) := by
    intro n hn
    induction n with
    | zero => simp [positionBit]
    | succ n ih =>
      have hsplit : ∀ x y : Byte, positionBit (x ||| y) m = (positionBit x m || positionBit y m) :=
        fun x y => BitVec.getLsbD_or
      rw [List.range_succ, List.foldl_append, List.foldl_cons, List.foldl_nil, hsplit, ih (by omega),
        positionBit_bitAtPosition _ (by omega) hm]
      rcases lt_trichotomy m n with h | rfl | h
      · simp [h, h.ne, Nat.lt_succ_of_lt h]
      · simp
      · simp [h.not_gt, h.ne', show ¬ m < n + 1 by omega]
  rw [byteOfPositions, hor 8 le_rfl, decide_eq_true hm, Bool.true_and]

/-- Settles O32: the image's bytes by their positions, written by `exec_writes_of_produces`. -/
theorem rdcodeWritesTheCodeImage : Obligations.RdcodeWritesTheCodeImage := by
  unfold Obligations.RdcodeWritesTheCodeImage
  intro s sym ⟨hv, hfit, hcap, herr, hwf⟩
  have hc : commandChecks (.rdcode sym) s = .ok () := commandChecks_rdcode_eq_ok_iff.2 ⟨hv, .inr hfit, hcap⟩
  have ho : Produces (.rdcode sym) s
      ⟨codeImage (codeOf s.code sym), (codeOf s.code sym).len.setWidth 32, 0#32⟩ := ⟨hc, rfl⟩
  have hlen := codeImage_length (codeOf s.code sym)
  obtain ⟨t, ht, hbytes, hsucc, hout, htables, hcontrol⟩ := exec_writes_of_produces (base := s.larg2) ho rfl hlen le_rfl hwf herr
  refine ⟨t, ht, fun k j hk hj => ?_, hsucc, hout, htables, hcontrol⟩
  rw [byteAt_of_regionBytes hbytes hk, List.getD_eq_getElem _ _ (hlen.symm ▸ hk)]
  simp only [codeImage, List.getElem_map, List.getElem_range]
  exact positionBit_byteOfPositions _ hj

/-! ## SAVE -/

/-- Settles O35: the output of SAVE is the serialization of the held tree. -/
theorem saveWritesThePreorder : Obligations.SaveWritesThePreorder := by
  unfold Obligations.SaveWritesThePreorder
  intro s tr ⟨hv, htree, hfit, hcap, herr, hwf⟩
  have hlen := tr.serialize_length
  have hsize : s.saveSize = 3 * tr.symbols.length - 1 := by rw [htree.saveSize, hlen]
  have hc : commandChecks .save s = .ok () := commandChecks_save_eq_ok_iff.2 ⟨hv, hfit, hsize ▸ hcap⟩
  have ho : Produces .save s ⟨tr.serialize, BitVec.ofNat 32 s.saveSize, s.arena.nleaves.setWidth 32⟩ :=
    ⟨hc, tr, htree.shape, rfl⟩
  have hcount : s.arena.nleaves.setWidth 32 = BitVec.ofNat 32 tr.symbols.length := by
    rw [← htree.count, BitVec.ofNat_toNat]
  rw [← hsize, ← hcount]
  exact exec_writes_of_produces ho rfl (hlen.trans hsize.symm) (hsize ▸ hcap) hwf (hsize ▸ herr)

/-! ## ENCODE -/

/-- The bits of a stream stored in a region. -/
theorem streamBit_of_regionBytes {s : State} {base : Addr} {n : Nat} {bytes : List Byte}
    (h : regionBytes s base n = bytes) {k : Nat} (hk : k < 8 * n) :
    streamBit s base k = positionBit (bytes.getD (k / 8) 0#8) (k % 8) := by
  rw [streamBit, byteAt_of_regionBytes h (by omega)]

/-- A region that holds a packed stream has its bits, and 0 bits after them. -/
theorem streamBits_of_packBits {s : State} {base : Addr} {bits : List Bool}
    (h : regionBytes s base (ceil8 bits.length) = packBits bits) :
    streamBits s base bits.length = bits ∧
      ∀ k, bits.length ≤ k → k < 8 * ceil8 bits.length → streamBit s base k = false := by
  have hlen := packBits_length bits
  have hbit : ∀ k, k < 8 * ceil8 bits.length → streamBit s base k = bits.getD k false := fun k hk => by
    rw [streamBit_of_regionBytes h hk, positionBit_packBits bits (by omega)]
  refine ⟨List.ext_getElem (by simp [streamBits]) fun k _ hk => ?_, fun k hk hlt => ?_⟩
  · simp only [streamBits, List.getElem_map, List.getElem_range]
    rw [hbit k (by unfold ceil8; omega), List.getD_eq_getElem _ _ hk]
  · rw [hbit k hlt, List.getD_eq_default _ _ hk]

/-- When ENCODE's source can be read, has codes and fits, its output is the packed stream of the codes. -/
theorem produces_encode {s : State} (hv : s.codesValid = true) (hreg : RegionsLegal .encode s)
    (hr : NoBusError s s.larg0 s.larg1.toNat .read)
    (hcode : ∀ b ∈ regionBytes s s.larg0 s.larg1.toNat, (codeOf s.code b).len ≠ 0#8)
    (hfit : (encodedBits s).length ≤ encodeLimit s.larg3.toNat) :
    Produces .encode s ⟨packBits (encodedBits s), BitVec.ofNat 32 (packBits (encodedBits s)).length,
      BitVec.ofNat 32 (encodedBits s).length⟩ := by
  refine ⟨commandChecks_encode_eq_ok_iff.2 ⟨hv, hreg⟩, (encodedBits s).length, encodedBits s,
    encodeTotal_eq_ok_iff.2 ⟨hr, hcode, rfl, hfit⟩,
    encodeBits_eq_ok_iff.2 ⟨readable_iff_noBusError.2 hr, by rw [encodedBits, regionBytes_eq_bytesFrom]⟩, rfl⟩

theorem forall_mem_regionBytes_iff {s : State} {base : Addr} {n : Nat} {P : Byte → Prop} :
    (∀ b ∈ regionBytes s base n, P b) ↔ ∀ k, k < n → P (byteAt s base k) := by
  simp [regionBytes]

/-- Settles O41: the output of ENCODE is the packed stream of its source's codes. -/
theorem encodeWritesThePackedStream : Obligations.EncodeWritesThePackedStream := by
  unfold Obligations.EncodeWritesThePackedStream
  intro s ⟨hv, hreg, hr, hcode, hcap, h32, herr, hwf⟩ n
  have hlen := packBits_length (encodedBits s)
  have ho := produces_encode hv hreg hr (forall_mem_regionBytes_iff.2 hcode) (by unfold encodeLimit; omega)
  have hle : ceil8 n ≤ s.larg3.toNat := by
    unfold ceil8
    omega
  obtain ⟨t, ht, hbytes, hsucc, hout, htables, hcontrol⟩ := exec_writes_of_produces (base := s.larg2) ho rfl hlen hle hwf herr
  obtain ⟨hbits, hpad⟩ := streamBits_of_packBits hbytes
  exact ⟨t, ht, hbits, hpad, hlen ▸ hsucc, hout, htables, hcontrol⟩

/-- When pass 1 of ENCODE fails, ENCODE raises its error and writes nothing. -/
theorem exec_encode_of_total_error {s : State} {e : CmdError} (hv : s.codesValid = true)
    (hreg : RegionsLegal .encode s) (h : encodeTotal s = .error e) :
    ∃ t, exec .encode s = .next t ∧ Raised s t e ∧ KeepsMemory s t ∧ KeepsTables s t ∧ KeepsControl s t := by
  have hc := commandChecks_encode_eq_ok_iff.2 ⟨hv, hreg⟩
  obtain ⟨hraised, htables, hmem, hcontrol⟩ := s.raiseError_frame e
  exact ⟨s.raiseError e, by simp only [exec, execEncode, hc, h], hraised, hmem, htables, hcontrol⟩

/-- Pass 1 of ENCODE comes to byte `i` when the bytes before it can be read, have codes and fit. -/
theorem encodeTotal_eq_from {s : State} {i : Nat} (hi : i < s.larg1.toNat) (hr : NoBusError s s.larg0 i .read)
    (hcode : ∀ k, k < i → (codeOf s.code (byteAt s s.larg0 k)).len ≠ 0#8)
    (hfit : (codeBits s.code (regionBytes s s.larg0 i)).length ≤ encodeLimit s.larg3.toNat) :
    encodeTotal s = encodeCheck s (encodeLimit s.larg3.toNat) (s.larg1.toNat - i - 1 + 1) i
      (codeBits s.code (regionBytes s s.larg0 i)).length := by
  have hsum : s.larg1.toNat = i + (s.larg1.toNat - i - 1 + 1) := by omega
  rw [encodeTotal]
  conv_lhs => rw [hsum]
  rw [regionBytes_eq_bytesFrom] at hfit ⊢
  rw [encodeCheck_add _ (readable_iff_noBusError.2 hr) ?_ (by rwa [Nat.zero_add]), Nat.zero_add, Nat.zero_add]
  rw [← regionBytes_eq_bytesFrom]
  exact forall_mem_regionBytes_iff.2 hcode

theorem regionBytes_succ (s : State) (base : Addr) (n : Nat) :
    regionBytes s base (n + 1) = regionBytes s base n ++ [byteAt s base n] := by
  simp [regionBytes, List.range_succ]

/-- Settles O42: pass 1 comes to byte `i`, and its next check fails. -/
theorem encodeReportsTheFirstBadByte : Obligations.EncodeReportsTheFirstBadByte := by
  unfold Obligations.EncodeReportsTheFirstBadByte
  intro s i hv hreg hi hr total limit b fails hcode hfit
  have hfrom := encodeTotal_eq_from hi hr hcode hfit
  have failing : ∀ e, encodeTotal s = .error e → fails e := fun e => exec_encode_of_total_error hv hreg
  refine ⟨fun hb => failing _ ?_, fun hb => ⟨fun h0 => failing _ ?_, fun h0 hover => failing _ ?_⟩⟩
  · rw [hfrom, encodeCheck, engineRead_of_busError hb]
  · have hlen : (codeOf s.code (byteAt s s.larg0 i)).len.toNat = 0 := congrArg BitVec.toNat h0
    rw [hfrom, encodeCheck, engineRead_of_readable hb]
    simp only [hlen, if_true]
    rfl
  · have hlen : (codeOf s.code (byteAt s s.larg0 i)).len.toNat ≠ 0 := fun h => h0 (BitVec.eq_of_toNat_eq h)
    have htotal : total (i + 1) = total i + (codeOf s.code (byteAt s s.larg0 i)).len.toNat := by
      simp only [total, regionBytes_succ, codeBits, List.flatMap_append, List.flatMap_singleton, List.length_append,
        CodeEntry.path_length]
    rw [htotal] at hover
    rw [hfrom, encodeCheck, engineRead_of_readable hb]
    simp only [hlen, if_false]
    exact if_pos hover

end Sys2Proof.Machine

/-! The arena BUILD makes: its leaves in symbol order, its internal nodes above their children, exact sums, and a tree
that depends on FREQ alone (41_tree_builder.md R120 to R126). -/

namespace Sys2Proof.Machine

/-! ## The alphabet and the ends of BUILD -/

theorem mem_alphabet_iff {freq : Vector Word 256} {sym : Sym} : sym ∈ alphabet freq ↔ freqOf freq sym ≠ 0#32 := by
  have hsym : sym ∈ (List.range Config.nsym).map (BitVec.ofNat 8) :=
    List.mem_map.2 ⟨sym.toNat, List.mem_range.2 sym.isLt, by simp⟩
  simp only [alphabet, List.mem_filter, hsym, true_and, bne_iff_ne]

theorem alphabet_eq_nil_iff {freq : Vector Word 256} : alphabet freq = [] ↔ ∀ sym, freqOf freq sym = 0#32 := by
  simp only [List.eq_nil_iff_forall_not_mem, mem_alphabet_iff, not_not]

/-- The symbols of the alphabet are in ascending order (41_tree_builder.md R121). -/
theorem alphabet_pairwise_lt (freq : Vector Word 256) : (alphabet freq).Pairwise (· < ·) := by
  refine List.Pairwise.filter _ (List.pairwise_map.2 (List.pairwise_lt_range.imp_of_mem fun ha hb hlt => ?_))
  rw [List.mem_range] at ha hb
  unfold Config.nsym at ha hb
  rw [BitVec.lt_def, BitVec.toNat_ofNat, BitVec.toNat_ofNat]
  omega

theorem exec_build_of_nil {s : State} (hw : s.freqWritten = true) (h : alphabet s.freq = []) :
    exec .build s = .next (s.dropTree.raiseError ⟨.emptyAlphabet, 0#32, 0#11⟩) := by
  simp only [exec, execBuild, hw, h, if_true, List.length_nil]

theorem exec_build_of_ne_nil {s : State} (hw : s.freqWritten = true) (h : alphabet s.freq ≠ []) :
    exec .build s = .next ((s.installTree (builtArena s.freq s.freeNodes)).complete
      (BitVec.ofNat 32 (alphabet s.freq).length) 0#32) := by
  have hlen : (alphabet s.freq).length ≠ 0 := fun h0 => h (List.length_eq_zero_iff.1 h0)
  simp only [exec, execBuild, hw, if_true]
  rw [if_neg hlen]

/-- BUILD that reaches a next state found a written table. -/
theorem freqWritten_of_exec_build {s t : State} (h : exec .build s = .next t) : s.freqWritten = true := by
  cases hw : s.freqWritten with
  | true => rfl
  | false => simp [exec, execBuild, hw] at h

/-- Settles O24: an empty alphabet is BUILD's one error. -/
theorem buildOfEmptyTableFails : Obligations.BuildOfEmptyTableFails := by
  unfold Obligations.BuildOfEmptyTableFails
  intro s hw h0
  refine ⟨_, exec_build_of_nil hw (alphabet_eq_nil_iff.2 h0), ⟨rfl, rfl, rfl, rfl, rfl, rfl, rfl⟩, rfl, rfl, ⟨rfl, rfl⟩,
    fun _ => rfl, ?_⟩
  exact (s.dropTree_writes.raiseError_ends _).idle_done_keepsControl.2.2

/-- Settles O25: the first test of BUILD. -/
theorem buildOfUnwrittenTableFaults : Obligations.BuildOfUnwrittenTableFaults := by
  unfold Obligations.BuildOfUnwrittenTableFaults
  intro s k hk
  have hw : s.freqWritten = false := by
    rw [State.freqWritten, List.all_eq_false]
    exact ⟨s.fw[k], by simp, by simp [hk]⟩
  simp [exec, execBuild, hw]

/-! ## The tree depends on FREQ alone -/

/-- Two builders that differ in the entries from the next index on alone. -/
structure Builder.Alike (b b' : Builder) : Prop where
  pool : b'.pool = b.pool
  next : b'.next = b.next
  node : ∀ i : NodeIdx, i.val < b.next → b'.node[i] = b.node[i]
  pooled : ∀ i ∈ b.pool, i.val < b.next

theorem leastKey_congr {node node' : Vector Node 511} {pool : List NodeIdx}
    (h : ∀ i ∈ pool, node'[i] = node[i]) : leastKey node' pool = leastKey node pool := by
  induction pool with
  | nil => rfl
  | cons i rest ih =>
    have hrest := ih fun j hj => h j (List.mem_cons_of_mem _ hj)
    cases hj : leastKey node rest with
    | none => simp only [leastKey, hrest, hj]
    | some j =>
      have hjmem : j ∈ rest := by
        obtain ⟨x, hx, hxj⟩ := exists_leastKey node (pool := rest) (by rintro rfl; cases hj)
        exact Option.some.inj (hxj.symm.trans hj) ▸ hx
      have hkey : keyLess node' j i = keyLess node j i := by
        simp only [keyLess, h i List.mem_cons_self, h j (List.mem_cons_of_mem _ hjmem)]
      simp only [leastKey, hrest, hj, hkey]

theorem mem_of_leastKey {node : Vector Node 511} {pool : List NodeIdx} {x : NodeIdx}
    (h : leastKey node pool = some x) : x ∈ pool := by
  obtain ⟨y, hy, hxy⟩ := exists_leastKey node (pool := pool) (by rintro rfl; cases h)
  exact Option.some.inj (hxy.symm.trans h) ▸ hy

/-- A merge reads and writes both builders alike. -/
theorem Builder.Alike.merge {b b' : Builder} (h : b.Alike b') : b.merge.Alike b'.merge := by
  obtain ⟨hpool, hnext, hnode, hpooled⟩ := h
  have hsame : ∀ l : List NodeIdx, (∀ i ∈ l, i ∈ b.pool) → leastKey b'.node l = leastKey b.node l :=
    fun l hl => leastKey_congr fun i hi => hnode i (hpooled i (hl i hi))
  have hx' := hsame b.pool fun _ hi => hi
  cases hx : leastKey b.node b.pool with
  | none => simpa only [Builder.merge, hpool, hx', hx] using ⟨hpool, hnext, hnode, hpooled⟩
  | some x =>
    have hy' := hsame (b.pool.erase x) fun _ hi => List.mem_of_mem_erase hi
    cases hy : leastKey b.node (b.pool.erase x) with
    | none => simpa only [Builder.merge, hpool, hx', hx, hy', hy] using ⟨hpool, hnext, hnode, hpooled⟩
    | some y =>
      have hxb := hnode x (hpooled x (mem_of_leastKey hx))
      have hyb := hnode y (hpooled y (List.mem_of_mem_erase (mem_of_leastKey hy)))
      rw [Builder.merge_eq_of_leastKey hx hy, Builder.merge_eq_of_leastKey (b := b') (x := x) (y := y)
        (by rw [hpool, hx', hx]) (by rw [hpool, hy', hy]), hpool, hnext, hxb, hyb]
      refine ⟨rfl, rfl, fun i hi => ?_, fun i hi => ?_⟩
      · simp only [Fin.getElem_fin, Vector.getElem_setIfInBounds]
        split
        · rfl
        · exact hnode i (by simp only at hi; omega)
      · rcases List.mem_append.1 hi with hi | hi
        · exact Nat.lt_succ_of_lt (hpooled i (List.mem_of_mem_erase (List.mem_of_mem_erase hi)))
        · rw [List.mem_singleton.1 hi]
          exact Nat.lt_succ_of_le (Nat.mod_le _ _)

theorem Builder.Alike.mergeTimes {b b' : Builder} (h : b.Alike b') (n : Nat) :
    (b.mergeTimes n).Alike (b'.mergeTimes n) := by
  induction n generalizing b b' with
  | zero => exact h
  | succ n ih => exact ih h.merge

/-- Before the first merge only the free entries differ. -/
theorem builderStart_alike (freq : Vector Word 256) (node node' : Vector Node 511) :
    (builderStart freq node).Alike (builderStart freq node') where
  pool := rfl
  next := rfl
  node i hi := by
    have hi : i.val < (alphabet freq).length := hi
    have h := placeLeaves_getElem_add freq (alphabet freq) 0 node hi (by omega)
    have h' := placeLeaves_getElem_add freq (alphabet freq) 0 node' hi (by omega)
    simp only [Nat.zero_add] at h h'
    exact h'.trans h.symm
  pooled i hi := ((builderStart_forest freq node).pooled i hi).1

/-- The tree below an index is the same in two arenas that agree below it, where children are below their parents. -/
theorem treeBelow_congr {node node' : Vector Node 511} {n : Nat} (hc : ChildrenBelow node n)
    (hsame : ∀ i : NodeIdx, i.val < n → node'[i] = node[i]) (fuel : Nat) {i : NodeIdx} (hi : i.val < n) :
    treeBelow node' fuel i = treeBelow node fuel i := by
  induction fuel generalizing i with
  | zero => rfl
  | succ fuel ih =>
    cases hf : node[i] with
    | leaf sym f => simp only [treeBelow, hsame i hi, hf]
    | internal l r f =>
      obtain ⟨hl, hr⟩ := hc i l r f hi hf
      have hleft : treeBelow node' fuel l = treeBelow node fuel l := ih (by omega)
      have hright : treeBelow node' fuel r = treeBelow node fuel r := ih (by omega)
      simp only [treeBelow, hsame i hi, hf, hleft, hright]

/-- The tree that BUILD makes does not depend on the free entries (41_tree_builder.md R125). -/
theorem builtArena_tree_congr {freq : Vector Word 256} (node node' : Vector Node 511) (h : alphabet freq ≠ []) :
    (builtArena freq node').tree = (builtArena freq node).tree := by
  have hpos := List.length_pos_iff.2 h
  have halike := (builderStart_alike freq node node').mergeTimes ((alphabet freq).length - 1)
  obtain ⟨⟨treeOf, hf⟩, hlen⟩ := (builderStart_forest freq node).mergeTimes (n := (alphabet freq).length - 1)
    (alphabet_length_le freq) (by simp [builderStart]; omega)
  obtain ⟨i, hi⟩ := List.length_eq_one_iff.1 hlen
  have hroot : (builtArena freq node').root = (builtArena freq node).root := by
    simp only [builtArena, halike.pool]
  have hbelow : (builtArena freq node).root.val < ((builderStart freq node).mergeTimes ((alphabet freq).length - 1)).next := by
    simp only [builtArena, hi, List.headD_cons]
    exact (hf.pooled i (by simp [hi])).1
  rw [Arena.tree, Arena.tree, hroot]
  exact treeBelow_congr hf.below halike.node _ hbelow

/-- Settles O28: both BUILDs find the same alphabet, and make the tree of the same merges. -/
theorem buildDependsOnFreqAlone : Obligations.BuildDependsOnFreqAlone := by
  unfold Obligations.BuildDependsOnFreqAlone
  intro s s' t t' hfreq h h'
  have hw := freqWritten_of_exec_build h
  have hw' := freqWritten_of_exec_build h'
  by_cases hnil : alphabet s.freq = []
  · obtain rfl := Host.Outcome.next.inj ((exec_build_of_nil hw hnil).symm.trans h)
    obtain rfl := Host.Outcome.next.inj ((exec_build_of_nil hw' (hfreq ▸ hnil)).symm.trans h')
    simp only [State.raiseError_treeValid, State.dropTree_treeValid, Bool.false_eq_true, false_implies, and_self]
  · obtain rfl := Host.Outcome.next.inj ((exec_build_of_ne_nil hw hnil).symm.trans h)
    obtain rfl := Host.Outcome.next.inj ((exec_build_of_ne_nil hw' (hfreq ▸ hnil)).symm.trans h')
    simp only [State.complete_treeValid, State.installTree_treeValid, State.complete_arena, State.installTree_arena,
      true_and, true_implies]
    rw [← hfreq]
    exact builtArena_tree_congr _ _ hnil

end Sys2Proof.Machine

/-! What the merges of BUILD keep: the arena's shape, and a forest whose nodes weigh what their leaves do together
(41_tree_builder.md R121 to R126). -/

namespace Sys2Proof.Machine

/-! ## Weights -/

/-- The sum of the frequencies of symbols. -/
def weightOf (freq : Vector Word 256) (syms : List Sym) : Nat := (syms.map fun sym => (freqOf freq sym).toNat).sum

/-- The weight of a tree: its leaves' frequencies together. -/
def HuffTree.weight (freq : Vector Word 256) (t : HuffTree) : Nat := weightOf freq t.symbols

theorem HuffTree.weight_node (freq : Vector Word 256) (l r : HuffTree) :
    (HuffTree.node l r).weight freq = l.weight freq + r.weight freq := by
  simp [HuffTree.weight, weightOf]

/-- The alphabet's frequencies fit in a node's 40 bits together (00_scope.md R7). -/
theorem weightOf_alphabet_lt (freq : Vector Word 256) : weightOf freq (alphabet freq) < 2 ^ 40 := by
  have hbound : ∀ w ∈ (alphabet freq).map (fun sym => (freqOf freq sym).toNat), w ≤ 2 ^ 32 - 1 := by
    intro w hw
    obtain ⟨sym, -, rfl⟩ := List.mem_map.1 hw
    have := (freqOf freq sym).isLt
    omega
  have hsum := List.sum_le_card_nsmul _ _ hbound
  have hlen := alphabet_length_le freq
  rw [List.length_map, smul_eq_mul] at hsum
  unfold weightOf
  have : (alphabet freq).length * (2 ^ 32 - 1) ≤ 256 * (2 ^ 32 - 1) := Nat.mul_le_mul_right _ hlen
  omega

/-! ## The merge of the two lightest -/

theorem freq_le_of_nodeKey_le {node : Vector Node 511} {i j : NodeIdx} (h : nodeKey node i ≤ nodeKey node j) :
    node[i].freq.toNat ≤ node[j].freq.toNat := by
  rcases Prod.Lex.toLex_le_toLex.1 h with h | ⟨h, -⟩
  · exact h.le
  · exact h.le

/-- A merge takes two lightest nodes `x` and `y` from the pool and puts their parent `k` in it, at the next index. -/
theorem Builder.exists_merge {b : Builder} (hpool : 2 ≤ b.pool.length) (hnext : b.next < 511) :
    ∃ (x y k : NodeIdx) (rest : List NodeIdx), b.pool.Perm (x :: y :: rest) ∧ k.val = b.next ∧
      b.node[x].freq.toNat ≤ b.node[y].freq.toNat ∧ (∀ z ∈ rest, b.node[y].freq.toNat ≤ b.node[z].freq.toNat) ∧
      b.merge = ⟨b.node.setIfInBounds b.next (.internal x y (b.node[x].freq + b.node[y].freq)), rest ++ [k],
        b.next + 1⟩ := by
  obtain ⟨x, hx, y, hy, hleast, hsecond⟩ := exists_two_leastKeys b.node hpool
  refine ⟨x, y, Fin.ofNat 511 b.next, (b.pool.erase x).erase y, ?_, Nat.mod_eq_of_lt hnext, ?_, fun z hz => ?_,
    Builder.merge_eq_of_leastKey hleast hsecond⟩
  · exact (List.perm_cons_erase hx).trans ((List.perm_cons_erase hy).cons x)
  · exact freq_le_of_nodeKey_le (nodeKey_le_of_leastKey hleast (List.mem_of_mem_erase hy))
  · exact freq_le_of_nodeKey_le (nodeKey_le_of_leastKey hsecond (List.mem_of_mem_erase hz))

/-! ## The invariant of the merges -/

/-- What holds of BUILD's arena and pool before and after every merge: the leaves of the alphabet from index 0 on, above
them internal nodes with children of lower index and exact sums, and in the pool trees that weigh the alphabet together,
the newest node among them. -/
structure Builder.Grown (freq : Vector Word 256) (b : Builder) (treeOf : NodeIdx → HuffTree) : Prop where
  leaves : ∀ k : NodeIdx, k.val < (alphabet freq).length → b.node[k] =
    .leaf ((alphabet freq).getD k.val 0#8) ((freqOf freq ((alphabet freq).getD k.val 0#8)).setWidth 40)
  inner : ∀ k : NodeIdx, (alphabet freq).length ≤ k.val → k.val < b.next → ∃ l r, l < k ∧ r < k ∧
    b.node[k] = .internal l r (b.node[l].freq + b.node[r].freq) ∧
    b.node[k].freq.toNat = b.node[l].freq.toNat + b.node[r].freq.toNat
  pooled : ∀ i ∈ b.pool, i.val < b.next ∧ TreeAt b.node i (treeOf i) ∧
    b.node[i].freq.toNat = (treeOf i).weight freq
  total : (b.pool.map fun i => b.node[i].freq.toNat).sum = weightOf freq (alphabet freq)
  count : b.next + b.pool.length = 2 * (alphabet freq).length
  above : (alphabet freq).length ≤ b.next
  newest : (alphabet freq).length < b.next → ∃ k ∈ b.pool, k.val + 1 = b.next

theorem Builder.Grown.childrenBelow {freq : Vector Word 256} {b : Builder} {treeOf : NodeIdx → HuffTree}
    (h : b.Grown freq treeOf) : ChildrenBelow b.node b.next := by
  intro i l r f hi hf
  by_cases hlt : i.val < (alphabet freq).length
  · rw [h.leaves i hlt] at hf
    cases hf
  · obtain ⟨l', r', hl, hr, hnode, -⟩ := h.inner i (by omega) hi
    cases hnode.symm.trans hf
    exact ⟨hl, hr⟩

/-- Before the first merge the nodes are the leaves. -/
theorem builderStart_grown (freq : Vector Word 256) (node : Vector Node 511) :
    (builderStart freq node).Grown freq (fun i => .leaf ((alphabet freq).getD i.val 0#8)) := by
  have hforest := builderStart_forest freq node
  have leaves : ∀ k : NodeIdx, k.val < (alphabet freq).length → (builderStart freq node).node[k] =
      .leaf ((alphabet freq).getD k.val 0#8) ((freqOf freq ((alphabet freq).getD k.val 0#8)).setWidth 40) := by
    intro k hk
    have h := placeLeaves_getElem_add freq (alphabet freq) 0 node hk (by omega)
    simp only [Nat.zero_add] at h
    rw [List.getD_eq_getElem _ _ hk]
    exact h
  have weigh : ∀ i ∈ (builderStart freq node).pool, (builderStart freq node).node[i].freq.toNat =
      (HuffTree.leaf ((alphabet freq).getD i.val 0#8)).weight freq := by
    intro i hi
    rw [leaves i (hforest.pooled i hi).1]
    simp [Node.freq, HuffTree.weight, weightOf]
    have := (freqOf freq ((alphabet freq).getD i.val 0#8)).isLt
    omega
  refine ⟨leaves, fun k hk hlt => absurd hlt (not_lt.2 hk), fun i hi => ?_, ?_, hforest.count,
    le_rfl, fun h => absurd h (lt_irrefl _)⟩
  · exact ⟨(hforest.pooled i hi).1, (hforest.pooled i hi).2, weigh i hi⟩
  · rw [List.map_congr_left weigh]
    have hsyms := (hforest.symbols.map fun sym => (freqOf freq sym).toNat).sum_eq
    rw [weightOf, ← hsyms]
    simp [HuffTree.weight, weightOf, List.flatMap_def, List.map_flatten, List.sum_flatten, Function.comp_def]

section Merge

variable {freq : Vector Word 256} {b : Builder} {treeOf : NodeIdx → HuffTree} {x y k : NodeIdx} {rest : List NodeIdx}

/-- The two nodes' frequencies add up without overflow (41_tree_builder.md R126). -/
theorem Builder.Grown.add_toNat (h : b.Grown freq treeOf) (hperm : b.pool.Perm (x :: y :: rest)) :
    (b.node[x].freq + b.node[y].freq).toNat = b.node[x].freq.toNat + b.node[y].freq.toNat := by
  have hsum := (hperm.map fun i => b.node[i].freq.toNat).sum_eq
  rw [h.total] at hsum
  simp only [List.map_cons, List.sum_cons] at hsum
  have hlt := weightOf_alphabet_lt freq
  rw [BitVec.toNat_add, Nat.mod_eq_of_lt (by omega)]

/-- A merge keeps the invariant, with the trees of the two nodes joined. -/
theorem Builder.Grown.merge (h : b.Grown freq treeOf) (hperm : b.pool.Perm (x :: y :: rest)) (hk : k.val = b.next) :
    Builder.Grown freq ⟨b.node.setIfInBounds b.next (.internal x y (b.node[x].freq + b.node[y].freq)), rest ++ [k],
      b.next + 1⟩ (mergedTrees treeOf k x y) := by
  have hbelow := h.childrenBelow
  have old : ∀ i, i ∈ x :: y :: rest → i.val < b.next ∧ TreeAt b.node i (treeOf i) ∧
      b.node[i].freq.toNat = (treeOf i).weight freq := fun i hi => h.pooled i (hperm.mem_iff.2 hi)
  obtain ⟨hx, hxt, hxw⟩ := old x (by simp)
  obtain ⟨hy, hyt, hyw⟩ := old y (by simp)
  have same : ∀ (v : Node) (i : NodeIdx), i.val < b.next → (b.node.setIfInBounds b.next v)[i] = b.node[i] :=
    fun v i hi => Vector.getElem_setIfInBounds_ne i.isLt (by omega)
  have new : ∀ v : Node, (b.node.setIfInBounds b.next v)[k] = v := fun v => by
    simp only [Fin.getElem_fin, hk]
    exact Vector.getElem_setIfInBounds_self (hk ▸ k.isLt)
  have keep : ∀ i ∈ rest, mergedTrees treeOf k x y i = treeOf i := fun i hi =>
    Function.update_of_ne (fun he => absurd (old i (by simp [hi])).1 (by simp [he, hk])) _ _
  have joined : mergedTrees treeOf k x y k = .node (treeOf x) (treeOf y) := Function.update_self ..
  refine ⟨fun i hi => ?_, fun i hi hlt => ?_, fun i hi => ?_, ?_, ?_, Nat.le_succ_of_le h.above,
    fun _ => ⟨k, by simp, by simp [hk]⟩⟩
  · rw [same _ i (lt_of_lt_of_le hi h.above)]
    exact h.leaves i hi
  · rcases Nat.lt_succ_iff_lt_or_eq.1 hlt with hlt | heq
    · obtain ⟨l, r, hl, hr, hnode, hfreq⟩ := h.inner i hi hlt
      exact ⟨l, r, hl, hr, by rw [same _ i hlt, same _ l (lt_trans hl hlt), same _ r (lt_trans hr hlt)]; exact hnode,
        by rw [same _ i hlt, same _ l (lt_trans hl hlt), same _ r (lt_trans hr hlt)]; exact hfreq⟩
    · obtain rfl : i = k := Fin.ext (heq.trans hk.symm)
      refine ⟨x, y, Fin.lt_def.2 (by omega), Fin.lt_def.2 (by omega), ?_, ?_⟩
      · rw [new, same _ x hx, same _ y hy]
      · rw [new, same _ x hx, same _ y hy]
        exact h.add_toNat hperm
  · rcases List.mem_append.1 hi with hi | hi
    · obtain ⟨hlt, htree, hweight⟩ := old i (by simp [hi])
      rw [keep i hi, same _ i hlt]
      exact ⟨Nat.lt_succ_of_lt hlt, htree.setIfInBounds hbelow hlt _, hweight⟩
    · obtain rfl := List.mem_singleton.1 hi
      rw [joined, new, HuffTree.weight_node, ← hxw, ← hyw]
      exact ⟨hk ▸ Nat.lt_succ_self _, TreeAt.setIfInBounds_self hbelow hk hx hy hxt hyt _, h.add_toNat hperm⟩
  · have hrest : rest.map (fun i => (b.node.setIfInBounds b.next
        (.internal x y (b.node[x].freq + b.node[y].freq)))[i].freq.toNat) =
        rest.map fun i => b.node[i].freq.toNat :=
      List.map_congr_left fun i hi => by rw [same _ i (old i (by simp [hi])).1]
    have hsum := (hperm.map fun i => b.node[i].freq.toNat).sum_eq
    rw [h.total] at hsum
    rw [List.map_append, hrest, List.map_singleton, new, List.sum_append, List.sum_singleton, hsum]
    show _ + (b.node[x].freq + b.node[y].freq).toNat = _
    rw [h.add_toNat hperm]
    simp only [List.map_cons, List.sum_cons]
    omega
  · have hlen := hperm.length_eq
    have hcount := h.count
    simp only [List.length_cons, List.length_append, List.length_nil] at hlen ⊢
    omega

end Merge

/-- `n` merges of `n + 1` trees keep the invariant and leave one. -/
theorem Builder.Grown.mergeTimes {freq : Vector Word 256} {b : Builder} {treeOf : NodeIdx → HuffTree} {n : Nat}
    (h : b.Grown freq treeOf) (hpool : b.pool.length = n + 1) :
    ∃ treeOf' i, (b.mergeTimes n).Grown freq treeOf' ∧ (b.mergeTimes n).pool = [i] := by
  induction n generalizing b treeOf with
  | zero =>
    obtain ⟨i, hi⟩ := List.length_eq_one_iff.1 hpool
    exact ⟨treeOf, i, h, hi⟩
  | succ n ih =>
    have hcount := h.count
    have hlen := alphabet_length_le freq
    obtain ⟨x, y, k, rest, hperm, hk, -, -, hmerge⟩ := Builder.exists_merge (b := b) (by omega) (by omega)
    rw [Builder.mergeTimes, hmerge]
    refine ih (h.merge hperm hk) ?_
    have := hperm.length_eq
    simp only [List.length_cons, List.length_append, List.length_nil] at this ⊢
    omega

/-! ## The arena BUILD makes -/

/-- The arena BUILD makes of a non-empty alphabet is a builder's after its last merge, with ROOT the node left. -/
theorem builtArena_grown {freq : Vector Word 256} (node : Vector Node 511) (h : alphabet freq ≠ []) :
    ∃ (b : Builder) (treeOf : NodeIdx → HuffTree) (i : NodeIdx), b.Grown freq treeOf ∧ b.pool = [i] ∧
      builtArena freq node = ⟨b.node, i, BitVec.ofNat 9 (alphabet freq).length⟩ := by
  have hpos := List.length_pos_iff.2 h
  obtain ⟨treeOf, i, hgrown, hpool⟩ := (builderStart_grown freq node).mergeTimes (n := (alphabet freq).length - 1)
    (by simp [builderStart]; omega)
  exact ⟨_, treeOf, i, hgrown, hpool, by simp only [builtArena, hpool, List.headD_cons]⟩

/-- The node left is the last one made (41_tree_builder.md R124). -/
theorem Builder.Grown.root_val {freq : Vector Word 256} {b : Builder} {treeOf : NodeIdx → HuffTree} {i : NodeIdx}
    (h : b.Grown freq treeOf) (hpool : b.pool = [i]) : i.val = 2 * (alphabet freq).length - 2 := by
  have hcount := h.count
  have hi := (h.pooled i (by simp [hpool])).1
  have habove := h.above
  rw [hpool, List.length_singleton] at hcount
  by_cases hnew : (alphabet freq).length < b.next
  · obtain ⟨k, hk, hval⟩ := h.newest hnew
    rw [hpool, List.mem_singleton] at hk
    subst hk
    omega
  · omega

/-- Settles O27: the invariant of the merges, read after the last. -/
theorem builtArenaShape : Obligations.BuiltArenaShape := by
  unfold Obligations.BuiltArenaShape
  intro freq node n hn hpos a
  subst hn
  have hne := List.length_pos_iff.1 hpos
  obtain ⟨b, treeOf, i, hgrown, hpool, harena⟩ := builtArena_grown node hne
  obtain ⟨t, ht, -⟩ := builtArena_holdsTree node hne
  have hroot := hgrown.root_val hpool
  have hcount := hgrown.count
  have htotal := hgrown.total
  rw [hpool] at hcount htotal
  rw [List.length_singleton] at hcount
  rw [List.map_singleton, List.sum_singleton] at htotal
  refine ⟨?_, ⟨t, ht⟩, ⟨alphabet freq, alphabet_pairwise_lt freq, fun _ => mem_alphabet_iff, rfl, ?_⟩, ?_, ?_⟩
  · simpa only [a, harena] using hroot
  · simpa only [a, harena] using hgrown.leaves
  · simp only [a, harena]
    exact fun k hk hlt => hgrown.inner k hk (by omega)
  · simpa only [a, harena, weightOf] using htotal

/-- Settles O23: the installed arena holds a tree over the alphabet, with the last node as its root. -/
theorem buildMakesATreeOfTheAlphabet : Obligations.BuildMakesATreeOfTheAlphabet := by
  unfold Obligations.BuildMakesATreeOfTheAlphabet
  intro s hw ⟨sym, hsym⟩
  have hne : alphabet s.freq ≠ [] := List.ne_nil_of_mem (mem_alphabet_iff.2 hsym)
  obtain ⟨tr, htr, hperm⟩ := builtArena_holdsTree s.freeNodes hne
  obtain ⟨b, treeOf, i, hgrown, hpool, harena⟩ := builtArena_grown s.freeNodes hne
  have hroot : (builtArena s.freq s.freeNodes).root.val = 2 * (alphabet s.freq).length - 2 := by
    rw [harena]
    exact hgrown.root_val hpool
  refine ⟨_, tr, exec_build_of_ne_nil hw hne, htr, fun x => hperm.mem_iff.trans mem_alphabet_iff, ?_, rfl, rfl, ?_,
    ⟨rfl, rfl⟩, fun _ => rfl, ?_⟩
  · rw [hperm.length_eq]
    exact hroot
  · rw [hperm.length_eq]
    exact ⟨rfl, rfl, rfl, rfl, rfl, rfl, rfl⟩
  · exact ((s.installTree_writes _).complete_ends _ _).idle_done_keepsControl.2.2

end Sys2Proof.Machine

/-! The leaves' paths: they lead to the leaves, none goes on from another, and their Kraft sum is 1
(42_code_generator.md R140, 10_state.md R44). -/

namespace Sys2Proof.Machine

/-! ## Paths -/

/-- The tree that a path leads to: 0 is left, 1 is right (42_code_generator.md R140). -/
def HuffTree.follow : HuffTree → List Bool → Option HuffTree
  | t, [] => some t
  | .leaf _, _ :: _ => none
  | .node l r, b :: p => if b then r.follow p else l.follow p

@[simp] theorem HuffTree.follow_nil (t : HuffTree) : t.follow [] = some t := by cases t <;> rfl

@[simp] theorem HuffTree.follow_leaf_cons (sym : Sym) (b : Bool) (p : List Bool) :
    (HuffTree.leaf sym).follow (b :: p) = none := rfl

theorem HuffTree.follow_node_cons (l r : HuffTree) (b : Bool) (p : List Bool) :
    (HuffTree.node l r).follow (b :: p) = (if b then r else l).follow p := by cases b <;> rfl

theorem HuffTree.follow_append {t u : HuffTree} {p : List Bool} (q : List Bool) (h : t.follow p = some u) :
    t.follow (p ++ q) = u.follow q := by
  induction p generalizing t with
  | nil => cases h.symm.trans t.follow_nil; rfl
  | cons b p ih =>
    cases t with
    | leaf sym => cases h
    | node l r =>
      rw [HuffTree.follow_node_cons] at h
      rw [List.cons_append, HuffTree.follow_node_cons]
      exact ih h

/-- A path splits at any point, where it has come to some tree. -/
theorem HuffTree.exists_follow_of_append {t u : HuffTree} {p q : List Bool} (h : t.follow (p ++ q) = some u) :
    ∃ v, t.follow p = some v ∧ v.follow q = some u := by
  induction p generalizing t with
  | nil => exact ⟨t, t.follow_nil, h⟩
  | cons b p ih =>
    cases t with
    | leaf sym => cases h
    | node l r =>
      rw [List.cons_append, HuffTree.follow_node_cons] at h
      rw [HuffTree.follow_node_cons]
      exact ih h

/-- The leaves' paths are the paths that lead to leaves. -/
theorem HuffTree.mem_leafPaths_iff {t : HuffTree} {sym : Sym} {p q : List Bool} :
    (sym, q) ∈ t.leafPaths p ↔ ∃ p', q = p ++ p' ∧ t.follow p' = some (.leaf sym) := by
  induction t generalizing p with
  | leaf x =>
    simp only [HuffTree.leafPaths, List.mem_singleton, Prod.mk.injEq]
    constructor
    · rintro ⟨rfl, rfl⟩
      exact ⟨[], by simp⟩
    · rintro ⟨_ | ⟨b, p'⟩, rfl, h⟩
      · simpa using h.symm
      · cases h
  | node l r ihl ihr =>
    rw [HuffTree.leafPaths, List.mem_append, ihl, ihr]
    constructor
    · rintro (⟨p', rfl, h⟩ | ⟨p', rfl, h⟩)
      · exact ⟨false :: p', by simp, h⟩
      · exact ⟨true :: p', by simp, h⟩
    · rintro ⟨_ | ⟨b, p'⟩, rfl, h⟩
      · cases h
      · rw [HuffTree.follow_node_cons] at h
        cases b with
        | false => exact .inl ⟨p', by simp, h⟩
        | true => exact .inr ⟨p', by simp, h⟩

/-- In a tree of several leaves the codes are the paths that lead to leaves. -/
theorem HuffTree.mem_codes_node_iff {l r : HuffTree} {sym : Sym} {p : List Bool} :
    (sym, p) ∈ (HuffTree.node l r).codes ↔ (HuffTree.node l r).follow p = some (.leaf sym) := by
  simp [HuffTree.codes, HuffTree.mem_leafPaths_iff]

theorem HuffTree.codes_leaf (sym : Sym) : (HuffTree.leaf sym).codes = [(sym, [false])] := rfl

/-- No code goes on from another symbol's (10_state.md R44). -/
theorem HuffTree.eq_of_codes_prefix {t : HuffTree} {x y : Sym} {p q : List Bool} (hx : (x, p) ∈ t.codes)
    (hy : (y, p ++ q) ∈ t.codes) : x = y := by
  cases t with
  | leaf sym =>
    simp only [HuffTree.codes_leaf, List.mem_singleton, Prod.mk.injEq] at hx hy
    exact hx.1.trans hy.1.symm
  | node l r =>
    rw [HuffTree.mem_codes_node_iff] at hx hy
    rw [HuffTree.follow_append q hx] at hy
    cases q with
    | nil => simpa using hy
    | cons b q => cases hy

/-! ## The Kraft sum -/

/-- The leaves below a node have its share of the Kraft sum together, while no path is longer than the scale. -/
theorem HuffTree.kraft_leafPaths {t : HuffTree} {p : List Bool} {n : Nat} (h : p.length + t.depth ≤ n) :
    ((t.leafPaths p).map fun c => 2 ^ (n - c.2.length)).sum = 2 ^ (n - p.length) := by
  induction t generalizing p with
  | leaf sym => simp [HuffTree.leafPaths]
  | node l r ihl ihr =>
    simp only [HuffTree.depth] at h
    have hhalf : n - p.length = n - (p.length + 1) + 1 := by omega
    rw [HuffTree.leafPaths, List.map_append, List.sum_append, ihl (by simp; omega), ihr (by simp; omega),
      List.length_append, List.length_singleton, List.length_append, List.length_singleton, hhalf, pow_succ]
    omega

/-- The Kraft sum of a tree's codes is 1, and 1/2 for a single leaf (10_state.md R44). -/
theorem HuffTree.kraft_codes {t : HuffTree} (hd : t.symbols.Nodup) :
    (t.codes.map fun c => 2 ^ (255 - c.2.length)).sum = if 2 ≤ t.symbols.length then 2 ^ 255 else 2 ^ 254 := by
  cases t with
  | leaf sym =>
    rw [if_neg (by simp), HuffTree.codes_leaf, List.map_singleton, List.sum_singleton, List.length_singleton]
  | node l r =>
    have hdepth := (HuffTree.node l r).depth_lt_symbols_length
    have hlen := symbols_length_le_of_nodup hd
    have hl := l.symbols_length_pos
    have hr := r.symbols_length_pos
    rw [if_pos (by rw [HuffTree.symbols_node, List.length_append]; omega), HuffTree.codes,
      HuffTree.kraft_leafPaths (by rw [List.length_nil]; omega), List.length_nil]

/-! ## The code table -/

/-- The entry of a leaf's symbol holds its code. -/
theorem codeOf_codeTable_path {t : HuffTree} (hd : t.symbols.Nodup) {sym : Sym} {p : List Bool}
    (h : (sym, p) ∈ t.codes) : (codeOf (codeTable t) sym).path = p := by
  rw [codeOf_codeTable hd h, CodeEntry.ofPath_path (HuffTree.length_of_mem_codes hd h).2]

theorem codeOf_codeTable_len_toNat {t : HuffTree} (hd : t.symbols.Nodup) {sym : Sym} {p : List Bool}
    (h : (sym, p) ∈ t.codes) : (codeOf (codeTable t) sym).len.toNat = p.length := by
  rw [codeOf_codeTable hd h, CodeEntry.ofPath_len_toNat (HuffTree.length_of_mem_codes hd h).2]

/-- A symbol has a code exactly when it is a leaf's (10_state.md R44). -/
theorem codeTable_len_pos_iff {t : HuffTree} (hd : t.symbols.Nodup) (sym : Sym) :
    1 ≤ (codeOf (codeTable t) sym).len.toNat ↔ sym ∈ t.symbols := by
  constructor
  · intro h
    by_contra hsym
    rw [codeOf_codeTable_of_not_mem hsym] at h
    exact absurd h (by decide)
  · intro h
    obtain ⟨p, hp⟩ := HuffTree.exists_mem_codes h
    rw [codeOf_codeTable_len_toNat hd hp]
    exact (HuffTree.length_of_mem_codes hd hp).1

/-- Settles O31: none of the current tree's paths goes on from another, and their Kraft sum is that of the whole tree. -/
theorem codeTableIsACompletePrefixCode : Obligations.CodeTableIsACompletePrefixCode := by
  unfold Obligations.CodeTableIsACompletePrefixCode
  intro s tr hlegal hv htr
  obtain ⟨-, t, ht, hcode⟩ := hlegal hv
  obtain rfl := ht.eq_of_tree htr
  have hd := ht.distinct
  refine ⟨?_, fun x hx y hy hne hprefix => hne ?_, codeOf_len_le_maxLen _, exists_codeOf_len_eq_maxLen _, ?_⟩
  · rw [hcode]
    exact codeTable_len_pos_iff hd
  · obtain ⟨p, hp⟩ := HuffTree.exists_mem_codes hx
    obtain ⟨q, hq⟩ := HuffTree.exists_mem_codes hy
    rw [hcode, codeOf_codeTable_path hd hp, codeOf_codeTable_path hd hq] at hprefix
    obtain ⟨rest, rfl⟩ := hprefix
    exact HuffTree.eq_of_codes_prefix hp hq
  · have hlens : t.codes.map (fun c => 2 ^ (255 - (codeOf s.code c.1).len.toNat)) =
        t.codes.map fun c => 2 ^ (255 - c.2.length) :=
      List.map_congr_left fun c hc => by rw [hcode, codeOf_codeTable_len_toNat hd hc]
    rw [ht.count, ← HuffTree.kraft_codes hd, ← hlens, ← t.codes_symbols, List.map_map]
    rfl

end Sys2Proof.Machine

/-! DECODE over the codes of symbols, and where it stops (45_decoder_unpacker.md R210 to R216). -/

namespace Sys2Proof.Machine

/-! ## The walk over codes -/

theorem walk_append {t : HuffTree} {xs ys : List Bool} {pos pos' : DecPos} {emitted : List Sym}
    (h : walk t xs pos = some (pos', emitted)) :
    walk t (xs ++ ys) pos = (walk t ys pos').map fun r => (r.1, emitted ++ r.2) := by
  induction xs generalizing pos emitted with
  | nil =>
    cases h
    simp
  | cons b xs ih =>
    rw [walk] at h
    rw [List.cons_append, walk]
    cases hstep : decodeStep t pos b with
    | none => simp [hstep] at h
    | some step =>
      rw [hstep] at h
      obtain ⟨⟨pos1, rest⟩, hrest, hend⟩ := Option.map_eq_some_iff.1 h
      cases hend
      simp [ih hrest, Function.comp_def]

theorem enterChild_leaf (d : Nat) (sym : Sym) : enterChild d (.leaf sym) = (.atRoot, some sym) := rfl

theorem enterChild_node (d : Nat) (l r : HuffTree) : enterChild d (.node l r) = (.descending d l r, none) := rfl

/-- Below a node at depth `d`, a path leads the walk to where the Decoder enters the tree that the path leads to. -/
theorem walk_of_follow {T L l r u : HuffTree} {R : HuffTree} (hT : T = .node L R) {d : Nat} {b : Bool} {p : List Bool}
    (h : (HuffTree.node l r).follow (b :: p) = some u) :
    walk T (b :: p) (.descending d l r) =
      some ((enterChild (d + (b :: p).length) u).1, (enterChild (d + (b :: p).length) u).2.toList) := by
  subst hT
  rw [HuffTree.follow_node_cons] at h
  induction p generalizing d l r b with
  | nil =>
    rw [HuffTree.follow_nil] at h
    cases h
    simp [walk, decodeStep]
  | cons b' p ih =>
    cases hchild : (if b then r else l) with
    | leaf sym =>
      rw [hchild] at h
      cases h
    | node l' r' =>
      rw [hchild, HuffTree.follow_node_cons] at h
      rw [walk]
      simp only [decodeStep, hchild, enterChild_node]
      rw [ih h]
      simp only [List.length_cons, Option.map_some, Option.toList_none, List.nil_append]
      rw [show d + 1 + (p.length + 1) = d + (p.length + 1 + 1) by omega]

/-- The root is the node at depth 0. -/
theorem walk_node_atRoot (l r : HuffTree) (b : Bool) (p : List Bool) :
    walk (.node l r) (b :: p) .atRoot = walk (.node l r) (b :: p) (.descending 0 l r) := rfl

/-- A code leads from the root back to it and emits its symbol (45_decoder_unpacker.md R212). -/
theorem walk_of_mem_codes {t : HuffTree} {sym : Sym} {p : List Bool} (h : (sym, p) ∈ t.codes) :
    walk t p .atRoot = some (.atRoot, [sym]) := by
  cases t with
  | leaf x =>
    simp only [HuffTree.codes_leaf, List.mem_singleton, Prod.mk.injEq] at h
    obtain ⟨rfl, rfl⟩ := h
    rfl
  | node l r =>
    rw [HuffTree.mem_codes_node_iff] at h
    cases p with
    | nil => cases h
    | cons b p =>
      rw [walk_node_atRoot, walk_of_follow rfl h]
      rfl

/-- Inside a code the walk emits nothing, and its depth is the number of bits taken. -/
theorem walk_inside_code {t : HuffTree} {sym : Sym} {p q : List Bool} (h : (sym, p ++ q) ∈ t.codes) (hq : q ≠ []) :
    ∃ pos, walk t p .atRoot = some (pos, []) ∧ (p ≠ [] → ∃ l r, pos = .descending p.length l r) := by
  cases p with
  | nil => exact ⟨.atRoot, rfl, fun hp => absurd rfl hp⟩
  | cons b p =>
    cases t with
    | leaf x =>
      have hlen := congrArg (fun c => c.2.length) (List.mem_singleton.1 (HuffTree.codes_leaf x ▸ h))
      simp only [List.cons_append, List.length_cons, List.length_append, List.length_nil] at hlen
      have := List.length_pos_iff.2 hq
      omega
    | node l r =>
      obtain ⟨v, hv, hleaf⟩ := HuffTree.exists_follow_of_append (HuffTree.mem_codes_node_iff.1 h)
      cases v with
      | leaf x =>
        obtain ⟨c, q, rfl⟩ := List.exists_cons_of_ne_nil hq
        cases hleaf
      | node l' r' =>
        refine ⟨.descending (b :: p).length l' r', ?_, fun _ => ⟨l', r', rfl⟩⟩
        rw [walk_node_atRoot, walk_of_follow rfl hv, Nat.zero_add]
        rfl

/-- The code of a leaf's symbol is among the codes. -/
theorem HuffTree.codeFor_mem_codes {t : HuffTree} {sym : Sym} (h : sym ∈ t.symbols) : (sym, t.codeFor sym) ∈ t.codes := by
  obtain ⟨p, hp⟩ := HuffTree.exists_mem_codes h
  obtain ⟨q, hq⟩ := Option.isSome_iff_exists.1 (List.lookup_isSome_iff.2 ⟨_, hp, beq_self_eq_true sym⟩)
  obtain ⟨l₁, l₂, hl, -⟩ := List.lookup_eq_some_iff.1 hq
  rw [HuffTree.codeFor, hq, hl]
  simp

/-- The codes of a symbol sequence lead from the root back to it and emit the sequence. -/
theorem walk_encodeAll {t : HuffTree} {symbols : List Sym} (h : ∀ sym ∈ symbols, sym ∈ t.symbols) :
    walk t (t.encodeAll symbols) .atRoot = some (.atRoot, symbols) := by
  induction symbols with
  | nil => rfl
  | cons sym symbols ih =>
    obtain ⟨hsym, hsymbols⟩ := List.forall_mem_cons.1 h
    show walk t (t.codeFor sym ++ t.encodeAll symbols) .atRoot = _
    rw [walk_append (walk_of_mem_codes (HuffTree.codeFor_mem_codes hsym)), ih hsymbols]
    rfl

/-- The codes of a symbol sequence, then the first bits of one more code. -/
theorem walk_encodeAll_append {t : HuffTree} {symbols : List Sym} {bits : List Bool} {pos : DecPos}
    (h : ∀ sym ∈ symbols, sym ∈ t.symbols) (hb : walk t bits .atRoot = some (pos, [])) :
    walk t (t.encodeAll symbols ++ bits) .atRoot = some (pos, symbols) := by
  rw [walk_append (walk_encodeAll h), hb, Option.map_some, List.append_nil]

/-! ## Pass 1 of DECODE up to where it fails -/

/-- The first bits of a longer stream. -/
theorem streamBits_eq_take {s : State} {base : Addr} {m n : Nat} (h : m ≤ n) :
    streamBits s base m = (streamBits s base n).take m := by
  rw [streamBits, streamBits, ← List.map_take, List.take_range, Nat.min_eq_left h]

/-- Pass 1 of DECODE comes to bit `m` when the bits before it can be read, walk the tree and emit no more symbols than
fit. -/
theorem decodeWalk_eq_from {s : State} {t : HuffTree} {m : Nat} {pos : DecPos} {emitted : List Sym}
    (hm : m ≤ s.larg1.toNat) (hr : BitsReadable s s.larg0 0 m)
    (hw : walk t (streamBits s s.larg0 m) .atRoot = some (pos, emitted)) (hfit : emitted.length ≤ s.larg3.toNat) :
    decodeWalk s t s.larg3.toNat s.larg1.toNat 0 .atRoot [] =
      decodeWalk s t s.larg3.toNat (s.larg1.toNat - m) m pos emitted := by
  rw [streamBits_eq_bitsFrom] at hw
  have h := decodeWalk_add (out := []) (s.larg1.toNat - m) hr hw (by simpa using hfit)
  rwa [Nat.add_sub_cancel' hm, Nat.zero_add, List.nil_append] at h

/-- When pass 1 of DECODE fails, DECODE raises its error and writes nothing. -/
theorem exec_decode_of_symbols_error {s : State} {t : HuffTree} {e : CmdError} (hv : s.treeValid = true)
    (ht : s.arena.tree = some t) (hreg : RegionsLegal .decode s) (h : decodeSymbols s t = .error e) :
    ∃ u, exec .decode s = .next u ∧ Raised s u e ∧ KeepsMemory s u ∧ KeepsTables s u ∧ KeepsControl s u := by
  have hc := commandChecks_decode_eq_ok_iff.2 ⟨hv, hreg⟩
  obtain ⟨hraised, htables, hmem, hcontrol⟩ := s.raiseError_frame e
  exact ⟨s.raiseError e, by simp only [exec, execDecode, hc, ht, h], hraised, hmem, htables, hcontrol⟩

theorem decodeSymbols_of_walk_error {s : State} {t : HuffTree} {e : CmdError}
    (h : decodeWalk s t s.larg3.toNat s.larg1.toNat 0 .atRoot [] = .error e) : decodeSymbols s t = .error e := by
  rw [decodeSymbols, h]

/-! ## The statements about DECODE -/

/-- Settles O43: the codes of the sequence walk from the root back to it and emit the sequence. -/
theorem decodeWritesTheSymbols : Obligations.DecodeWritesTheSymbols := by
  unfold Obligations.DecodeWritesTheSymbols
  intro s tr symbols ⟨hv, htr, hreg, hr, hsyms, hbits, hcap, herr, hwf⟩
  have hout : decodeSymbols s tr = .ok symbols :=
    decodeSymbols_eq_ok_iff.2 ⟨bitsReadable_of_noBusError hr le_rfl, hbits ▸ walk_encodeAll hsyms, hcap⟩
  have ho : Produces .decode s ⟨symbols, BitVec.ofNat 32 symbols.length, BitVec.ofNat 32 (ceil8 s.larg1.toNat)⟩ :=
    ⟨commandChecks_decode_eq_ok_iff.2 ⟨hv, hreg⟩, tr, symbols, htr, hout, rfl⟩
  exact exec_writes_of_produces (base := s.larg2) ho rfl rfl hcap hwf herr

/-- Settles O44: the walk ends inside the code, and where a read fails no later bit counts. -/
theorem decodeStopsWithinTheStream : Obligations.DecodeStopsWithinTheStream := by
  unfold Obligations.DecodeStopsWithinTheStream
  intro s tr symbols sym p q hv htr hreg hsyms hcap hq hcode fails
  obtain ⟨pos, hpos, hdepth⟩ := walk_inside_code hcode hq
  have failing : ∀ e, decodeSymbols s tr = .error e → fails e :=
    fun e => exec_decode_of_symbols_error hv htr.shape hreg
  refine ⟨fun hp hr hbits => failing _ ?_, fun j hj hr hb hbits => failing _ (decodeSymbols_of_walk_error ?_)⟩
  · obtain ⟨l, r, rfl⟩ := hdepth hp
    have hwalk := decodeWalk_eq_from le_rfl (bitsReadable_of_noBusError hr le_rfl)
      (hbits ▸ walk_encodeAll_append hsyms hpos) hcap
    rw [Nat.sub_self, decodeWalk] at hwalk
    rw [decodeSymbols, hwalk]
  · obtain ⟨m, hm⟩ : ∃ m, s.larg1.toNat - 8 * j = m + 1 := ⟨s.larg1.toNat - 8 * j - 1, by omega⟩
    rw [decodeWalk_eq_from hj.le (bitsReadable_of_noBusError hr (by unfold ceil8; omega))
      (hbits ▸ walk_encodeAll_append hsyms hpos) hcap, hm, decodeWalk,
      unpackBit_of_busError (by rwa [Nat.mul_div_cancel_left j (by omega)]), Nat.mul_div_cancel_left j (by omega)]

/-- In a single-leaf tree 0 bits emit its symbol each. -/
theorem walk_leaf_replicate (sym : Sym) (k : Nat) :
    walk (.leaf sym) (List.replicate k false) .atRoot = some (.atRoot, List.replicate k sym) := by
  induction k with
  | zero => rfl
  | succ k ih =>
    rw [List.replicate_succ, walk]
    simp [decodeStep, ih, List.replicate_succ]

/-- Settles O45: after the 0 bits the walk is at the root, where a 1 bit has nowhere to go. -/
theorem singleLeafOneBitIsCorrupt : Obligations.SingleLeafOneBitIsCorrupt := by
  unfold Obligations.SingleLeafOneBitIsCorrupt
  intro s sym k hv htr hreg hr hk hcap hzero hone
  have hbits : streamBits s s.larg0 k = List.replicate k false := by
    refine List.eq_replicate_iff.2 ⟨by simp [streamBits], fun b hb => ?_⟩
    obtain ⟨j, hj, rfl⟩ := List.mem_map.1 hb
    exact hzero j (List.mem_range.1 hj)
  have hread := bitsReadable_of_noBusError hr le_rfl
  obtain ⟨m, hm⟩ : ∃ m, s.larg1.toNat - k = m + 1 := ⟨s.larg1.toNat - k - 1, by omega⟩
  refine exec_decode_of_symbols_error hv htr hreg (decodeSymbols_of_walk_error ?_)
  rw [decodeWalk_eq_from hk.le (fun j hj hlt => hread j hj (by omega)) (hbits ▸ walk_leaf_replicate sym k)
    (by simpa using hcap), hm, decodeWalk, unpackBit_of_readable (hread k (by omega) (by omega)), hone]
  rfl

/-! ## Outputs too large -/

/-- The last bit of a code emits its symbol where the bits before it have led. -/
theorem decodeStep_last_of_mem_codes {t : HuffTree} {sym : Sym} {p : List Bool} {b : Bool}
    (h : (sym, p ++ [b]) ∈ t.codes) :
    ∃ pos, walk t p .atRoot = some (pos, []) ∧ decodeStep t pos b = some (.atRoot, some sym) := by
  obtain ⟨pos, hpos, -⟩ := walk_inside_code h (List.cons_ne_nil b [])
  refine ⟨pos, hpos, ?_⟩
  have hwhole := walk_of_mem_codes h
  rw [walk_append hpos, walk] at hwhole
  cases hstep : decodeStep t pos b with
  | none => simp [hstep] at hwhole
  | some step =>
    obtain ⟨pos', _ | x⟩ := step <;> simp [hstep, walk] at hwhole
    rw [hwhole.1, hwhole.2]

/-- A code is not empty. -/
theorem HuffTree.codes_ne_nil {t : HuffTree} {sym : Sym} {p : List Bool} (h : (sym, p) ∈ t.codes) : p ≠ [] := by
  rintro rfl
  exact absurd (walk_of_mem_codes h) (by simp [walk])

/-- DECODE at the bit that ends one code more than fits. -/
theorem decodeSymbols_of_overflow {s : State} {t : HuffTree} {symbols : List Sym} {last : Sym}
    (hsyms : ∀ x ∈ symbols ++ [last], x ∈ t.symbols) (hcap : symbols.length = s.larg3.toNat)
    (hle : (t.encodeAll (symbols ++ [last])).length ≤ s.larg1.toNat)
    (hr : BitsReadable s s.larg0 0 (t.encodeAll (symbols ++ [last])).length)
    (hbits : streamBits s s.larg0 (t.encodeAll (symbols ++ [last])).length = t.encodeAll (symbols ++ [last])) :
    decodeSymbols s t =
      .error ⟨.outputOverflow, BitVec.ofNat 32 ((t.encodeAll (symbols ++ [last])).length - 1), 0#11⟩ := by
  have hmem := HuffTree.codeFor_mem_codes (hsyms last (by simp))
  obtain ⟨p, b, hcode⟩ : ∃ p b, t.codeFor last = p ++ [b] :=
    (List.eq_nil_or_concat' (t.codeFor last)).resolve_left (HuffTree.codes_ne_nil hmem)
  obtain ⟨pos, hpos, hstep⟩ := decodeStep_last_of_mem_codes (hcode ▸ hmem)
  have hall : t.encodeAll (symbols ++ [last]) = t.encodeAll symbols ++ p ++ [b] := by
    simp [HuffTree.encodeAll, hcode]
  rw [hall, List.length_append, List.length_singleton] at hle hr hbits
  have hinit : streamBits s s.larg0 (t.encodeAll symbols ++ p).length = t.encodeAll symbols ++ p := by
    rw [streamBits_eq_take (Nat.le_succ _), hbits, List.take_left]
  have hlast : streamBit s s.larg0 (t.encodeAll symbols ++ p).length = b := by
    have h := congrArg (fun bits => bits.getD (t.encodeAll symbols ++ p).length false) hbits
    simpa [streamBits, List.getD_append_right] using h
  rw [hall, List.length_append, List.length_singleton, Nat.add_sub_cancel]
  generalize hk : (t.encodeAll symbols ++ p).length = k at *
  obtain ⟨m, hm⟩ : ∃ m, s.larg1.toNat - k = m + 1 := ⟨s.larg1.toNat - k - 1, by omega⟩
  refine decodeSymbols_of_walk_error ?_
  rw [decodeWalk_eq_from (by omega) (fun j hj hlt => hr j hj (by omega))
    (hinit ▸ walk_encodeAll_append (fun x hx => hsyms x (by simp [hx])) hpos) hcap.le, hm, decodeWalk,
    unpackBit_of_readable (hr k (by omega) (by omega)), hlast]
  simp only [hstep, hcap, if_true]

/-- The check of the room fails when the checks before it pass. -/
theorem checkRoom_eq_error {cap : Word} {size : Nat} (h : cap.toNat < size) :
    checkRoom cap size = .error ⟨.outputOverflow, BitVec.ofNat 32 size, 0#11⟩ := if_pos h

/-- Settles O36: RDCODE and SAVE fail the check of the room, DECODE at the bit that ends a code too many. -/
theorem outputsTooLargeAreRefused : Obligations.OutputsTooLargeAreRefused := by
  unfold Obligations.OutputsTooLargeAreRefused
  intro s refused
  have failing : ∀ {i : Instr} {pos : Word}, i ≠ .load →
      commandChecks i s = .error ⟨.outputOverflow, pos, 0#11⟩ → refused i pos := fun hi hc => by
    obtain ⟨t, ht, hraised, htables, hmem, hcontrol⟩ := exec_frame_of_checks_error hi hc
    exact ⟨t, ht, hraised, hmem, htables, hcontrol⟩
  refine ⟨fun sym hv hfit hroom => failing (by simp) ?_, fun hv hfit hroom => failing (by simp) ?_, ?_⟩
  · have hdest : checkDest (destRegion (.rdcode sym) s) = .ok () :=
      checkDest_eq_ok_iff.2 (Region.wraps_eq_false_iff_fits.2 (.inr hfit))
    simp only [commandChecks, checksOf, firstError, checkCodes_eq_ok_iff.2 hv, hdest, checkRoom_eq_error hroom]
  · have hdest : checkDest (destRegion .save s) = .ok () :=
      checkDest_eq_ok_iff.2 (Region.wraps_eq_false_iff_fits.2 hfit)
    have hsize : s.larg3.toNat < s.saveSize := hroom
    simp only [commandChecks, checksOf, firstError, checkTree_eq_ok_iff.2 hv, hdest, checkRoom_eq_error hsize]
    rfl
  · intro tr symbols last hv htr hreg hsyms hcap n hn hr hbits
    exact exec_decode_of_symbols_error hv htr.shape hreg
      (decodeSymbols_of_overflow hsyms hcap hn (bitsReadable_of_noBusError hr le_rfl) hbits)

/-! ## The round trip -/

/-- An ENCODE that completes without error came to write its output. -/
theorem produces_of_exec_encode {s t : State} (h : exec .encode s = .next t) (h0 : t.err = 0#4) :
    ∃ o, Produces .encode s o ∧ t = o.write s.larg2 s := by
  have raised : ∀ e : CmdError, exec .encode s ≠ .next (s.raiseError e) := fun e he => by
    obtain rfl := Host.Outcome.next.inj (h.symm.trans he)
    exact e.kind.code_ne_zero h0
  cases hc : commandChecks .encode s with
  | error e => exact absurd (by simp only [exec, execEncode, hc]) (raised e)
  | ok u =>
    cases htotal : encodeTotal s with
    | error e => exact absurd (by simp only [exec, execEncode, hc, htotal]) (raised e)
    | ok total =>
      cases hbits : encodeBits s s.larg1.toNat 0 with
      | error e => exact absurd (by simp only [exec, execEncode, hc, htotal, hbits]) (raised e)
      | ok bits =>
        have ho : Produces .encode s ⟨packBits bits, BitVec.ofNat 32 (packBits bits).length, BitVec.ofNat 32 total⟩ :=
          ⟨hc, total, bits, htotal, hbits, rfl⟩
        exact ⟨_, ho, Host.Outcome.next.inj (h.symm.trans (exec_of_produces ho))⟩

/-- An output written without error stands in its region. -/
theorem Output.regionBytes_write {o : Output} {base : Addr} {s : State} (hwf : s.mem.wf)
    (hlen : o.bytes.length ≤ 2 ^ 32) (h0 : (o.write base s).err = 0#4) :
    regionBytes (o.write base s) base o.bytes.length = o.bytes ∧ (o.write base s).result0 = o.result0 ∧
      (o.write base s).result1 = o.result1 := by
  unfold Output.write at h0 ⊢
  rcases writeAndComplete_cases base o.bytes o.result0 o.result1 s with ⟨t, hw, he⟩ | ⟨t, e, -, he⟩
  · rw [he]
    refine ⟨List.ext_getElem (by simp [regionBytes]) fun k _ hk => ?_, rfl, rfl⟩
    have hstored := writeBytes_stored hw hwf (by omega) k hk
    rw [Nat.zero_add] at hstored
    simpa [regionBytes, byteAt] using hstored
  · rw [he, State.raiseError_err] at h0
    exact absurd h0 e.kind.code_ne_zero

/-- The codes in the code table of a tree are its codes. -/
theorem codeBits_codeTable {t : HuffTree} (hd : t.symbols.Nodup) {symbols : List Sym}
    (h : ∀ sym ∈ symbols, sym ∈ t.symbols) : codeBits (codeTable t) symbols = t.encodeAll symbols := by
  simp only [codeBits, HuffTree.encodeAll, List.flatMap_def]
  rw [List.map_congr_left fun sym hsym => codeOf_codeTable_path hd (HuffTree.codeFor_mem_codes (h sym hsym))]

/-- Memory alone decides the bytes of a region. -/
theorem regionBytes_congr {s t : State} (h : s.mem = t.mem) (base : Addr) (n : Nat) :
    regionBytes s base n = regionBytes t base n :=
  List.map_congr_left fun k _ => congrArg (Memory.read · (addrAt base k)) h

/-- Settles O46: what ENCODE wrote are the codes of its source, which DECODE reads back. -/
theorem decodeUndoesEncode : Obligations.DecodeUndoesEncode := by
  unfold Obligations.DecodeUndoesEncode
  intro s t u hwf hlegal hv ht h0 huv huarena humem hubase hubits hcap hreg hr hw
  obtain ⟨-, tr, htr, hcode⟩ := hlegal hv
  obtain ⟨o, ⟨hc, total, bits, htotal, hbits, rfl⟩, rfl⟩ := produces_of_exec_encode ht h0
  obtain ⟨-, hcodes, rfl, hlimit⟩ := encodeTotal_eq_ok_iff.1 htotal
  obtain rfl : bits = encodedBits s := by
    rw [encodedBits, regionBytes_eq_bytesFrom]
    exact (encodeBits_eq_ok_iff.1 hbits).2
  have hsyms : ∀ sym ∈ regionBytes s s.larg0 s.larg1.toNat, sym ∈ tr.symbols := fun sym hsym =>
    (codeTable_len_pos_iff htr.distinct sym).1 (hcode ▸ Nat.one_le_iff_ne_zero.2 fun hz =>
      hcodes sym hsym (BitVec.eq_of_toNat_eq hz))
  have hall : encodedBits s = tr.encodeAll (regionBytes s s.larg0 s.larg1.toNat) := by
    rw [encodedBits, hcode, codeBits_codeTable htr.distinct hsyms]
  have hlt : (encodedBits s).length < 2 ^ 32 := by
    unfold encodeLimit at hlimit
    omega
  have hpack := packBits_length (encodedBits s)
  have hceil : ceil8 (encodedBits s).length < 2 ^ 32 := by
    unfold ceil8
    omega
  obtain ⟨hbytes, hres0, hres1⟩ := Output.regionBytes_write (base := s.larg2) hwf (by simp only; omega) h0
  have hnbits : u.larg1.toNat = (encodedBits s).length := by
    rw [hubits, hres1, BitVec.toNat_ofNat, Nat.mod_eq_of_lt hlt]
  have hlen : (regionBytes s s.larg0 s.larg1.toNat).length = s.larg1.toNat := by simp [regionBytes]
  have hstream : streamBits u u.larg0 u.larg1.toNat = tr.encodeAll (regionBytes s s.larg0 s.larg1.toNat) := by
    rw [hnbits, hubase, ← hall]
    refine (streamBits_of_packBits ?_).1
    rw [regionBytes_congr humem, ← hpack]
    exact hbytes
  rw [hres0, hpack, BitVec.toNat_ofNat, Nat.mod_eq_of_lt hceil, ← hnbits] at hr
  obtain ⟨v, hexec, hout, hsucc, -⟩ := decodeWritesTheSymbols u tr (regionBytes s s.larg0 s.larg1.toNat)
    ⟨huv, huarena ▸ htr.shape, hreg, hr, hsyms, hstream, by omega, by rwa [hlen], humem ▸ exec_keeps_memoryLegal ht hwf⟩
  rw [hlen] at hout hsucc
  rw [hnbits, BitVec.ofNat_toNat, BitVec.setWidth_eq, ← hpack] at hsucc
  exact ⟨v, hexec, by rw [hres0]; exact hsucc, hout⟩

end Sys2Proof.Machine

/-! LOAD over the nodes of a serialized tree: the arena it makes, and where a stream goes wrong (43_tree_codec.md R163 to
R169). -/

namespace Sys2Proof.Machine

/-! ## The bytes LOAD reads -/

theorem readsBytes_of_regionBytes {s : State} {base : Addr} {n : Nat} {bytes : List Byte}
    (hr : NoBusError s base n .read) (h : regionBytes s base n = bytes) : ReadsBytes s base 0 bytes := by
  subst h
  intro j hj
  rw [Nat.zero_add, engineRead_of_readable (hr j (by simpa [regionBytes] using hj))]
  simp [regionBytes]

theorem regionBytes_of_readsBytes {s : State} {base : Addr} {bytes : List Byte} (h : ReadsBytes s base 0 bytes) :
    regionBytes s base bytes.length = bytes := by
  refine List.ext_getElem (by simp [regionBytes]) fun j _ hj => ?_
  have hread := h j hj
  rw [Nat.zero_add, engineRead_eq_ok_iff] at hread
  simpa [regionBytes, byteAt] using hread.2

theorem readsBytes_append_iff {s : State} {base : Addr} {off : Nat} {xs ys : List Byte} :
    ReadsBytes s base off (xs ++ ys) ↔ ReadsBytes s base off xs ∧ ReadsBytes s base (off + xs.length) ys := by
  constructor
  · intro h
    refine ⟨fun j hj => ?_, fun j hj => ?_⟩
    · rw [h j (by rw [List.length_append]; omega), List.getElem_append_left hj]
    · rw [Nat.add_assoc, h (xs.length + j) (by rw [List.length_append]; omega),
        List.getElem_append_right (Nat.le_add_right _ _)]
      simp
  · rintro ⟨hx, hy⟩ j hj
    by_cases hlt : j < xs.length
    · rw [hx j hlt, List.getElem_append_left hlt]
    · rw [List.length_append] at hj
      have h := hy (j - xs.length) (by omega)
      rw [Nat.add_assoc, Nat.add_sub_cancel' (not_lt.1 hlt)] at h
      rw [h, List.getElem_append_right (not_lt.1 hlt)]

/-! ## One node -/

/-- The loader after one node of a well-formed stream: an internal node or a leaf with its symbol
(43_tree_codec.md R167). -/
def Loader.take (ld : Loader) (token : Option Sym) : Loader :=
  match ld.slots, token with
  | [], _ => ld
  | slot :: rest, none =>
    { ld with
      node := placeNode ld.node slot (Fin.ofNat 511 ld.cnt) (.internal 0 0 0#40), off := ld.off + 1, cnt := ld.cnt + 1,
      slots := .left (Fin.ofNat 511 ld.cnt) :: .right (Fin.ofNat 511 ld.cnt) :: rest }
  | slot :: rest, some sym =>
    { ld with
      node := placeNode ld.node slot (Fin.ofNat 511 ld.cnt) (.leaf sym 0#40), off := ld.off + 2, cnt := ld.cnt + 1,
      leaves := ld.leaves + 1, seen := sym :: ld.seen, slots := rest }

theorem Loader.take_none {ld : Loader} {slot : Slot} {rest : List Slot} (h : ld.slots = slot :: rest) :
    ld.take none = { ld with
      node := placeNode ld.node slot (Fin.ofNat 511 ld.cnt) (.internal 0 0 0#40), off := ld.off + 1, cnt := ld.cnt + 1,
      slots := .left (Fin.ofNat 511 ld.cnt) :: .right (Fin.ofNat 511 ld.cnt) :: rest } := by
  simp only [Loader.take, h]

theorem Loader.take_some {ld : Loader} {slot : Slot} {rest : List Slot} (h : ld.slots = slot :: rest) (sym : Sym) :
    ld.take (some sym) = { ld with
      node := placeNode ld.node slot (Fin.ofNat 511 ld.cnt) (.leaf sym 0#40), off := ld.off + 2, cnt := ld.cnt + 1,
      leaves := ld.leaves + 1, seen := sym :: ld.seen, slots := rest } := by
  simp only [Loader.take, h]

/-- A node takes its bytes. -/
theorem Loader.take_off {ld : Loader} (h : ld.slots ≠ []) (token : Option Sym) :
    (ld.take token).off = ld.off + (tokenBytes token).length := by
  obtain ⟨slot, rest, hslots⟩ := List.exists_cons_of_ne_nil h
  cases token with
  | none => rw [Loader.take_none hslots]; rfl
  | some sym => rw [Loader.take_some hslots]; rfl

/-- A leaf's symbol is seen. -/
theorem Loader.take_seen {ld : Loader} (h : ld.slots ≠ []) (token : Option Sym) :
    (ld.take token).seen = token.toList ++ ld.seen := by
  obtain ⟨slot, rest, hslots⟩ := List.exists_cons_of_ne_nil h
  cases token with
  | none => rw [Loader.take_none hslots]; rfl
  | some sym => rw [Loader.take_some hslots]; rfl

/-- A pass of the loop that reads a node's bytes, a leaf's symbol among them not seen yet, takes the node. -/
theorem loadNode_eq_take {s : State} {avail : Nat} {ld : Loader} {slot : Slot} {rest : List Slot} {token : Option Sym}
    (hslots : ld.slots = slot :: rest) (hr : ReadsBytes s s.larg0 ld.off (tokenBytes token))
    (havail : ld.off + (tokenBytes token).length ≤ avail) (hnew : ∀ sym ∈ token, sym ∉ ld.seen) :
    loadNode s avail slot rest ld = .ok (ld.take token) := by
  cases token with
  | none =>
    have htag : engineRead s (addrAt s.larg0 ld.off) = .ok 0x00#8 := hr 0 (by simp [tokenBytes])
    rw [Loader.take_none hslots, loadNode, htag]
    rfl
  | some sym =>
    have htag : engineRead s (addrAt s.larg0 ld.off) = .ok 0x01#8 := hr 0 (by simp [tokenBytes])
    have hsym : engineRead s (addrAt s.larg0 (ld.off + 1)) = .ok sym := hr 1 (by simp [tokenBytes])
    have hne : ld.off + 1 ≠ avail := by
      simp only [tokenBytes, List.length_cons, List.length_nil] at havail
      omega
    rw [Loader.take_some hslots, loadNode, htag]
    simp only [show ¬ (0x01#8 : Byte) = 0x00#8 by decide, if_false, if_true, if_neg hne, hsym,
      if_neg (hnew sym rfl)]
    rfl

/-- The loop goes on after a pass that succeeds. -/
theorem loadLoop_of_node_ok {s : State} {avail room : Nat} {ld ld' : Loader} {slot : Slot} {rest : List Slot}
    (hslots : ld.slots = slot :: rest) (havail : ld.off ≠ avail) (h : loadNode s avail slot rest ld = .ok ld') :
    loadLoop s avail (room + 1) ld = loadLoop s avail room ld' := by
  rw [loadLoop]
  simp only [hslots, if_neg havail, h]

/-- The loop ends with a pass that fails. -/
theorem loadLoop_of_node_error {s : State} {avail room : Nat} {ld : Loader} {slot : Slot} {rest : List Slot}
    {e : CmdError} (hslots : ld.slots = slot :: rest) (havail : ld.off ≠ avail)
    (h : loadNode s avail slot rest ld = .error e) : loadLoop s avail (room + 1) ld = .error e := by
  rw [loadLoop]
  simp only [hslots, if_neg havail, h]

/-! ## The nodes of a forest -/

/-- The loop over the first nodes of trees, one for each open slot, with new and distinct leaf symbols: what is left of
the trees is a forest again, one for each slot still open. -/
theorem loadLoop_takes {s : State} {avail : Nat} (room : Nat) {ld : Loader} {ts : List HuffTree}
    {done rest : List (Option Sym)} (hts : ts.flatMap HuffTree.tokens = done ++ rest)
    (hlen : ld.slots.length = ts.length) (hr : ReadsBytes s s.larg0 ld.off (done.flatMap tokenBytes))
    (havail : ld.off + (done.flatMap tokenBytes).length ≤ avail)
    (hnew : ((done.filterMap id).reverse ++ ld.seen).Nodup) :
    ∃ ts' : List HuffTree, loadLoop s avail (done.length + room) ld = loadLoop s avail room (done.foldl Loader.take ld) ∧
      rest = ts'.flatMap HuffTree.tokens ∧ (done.foldl Loader.take ld).slots.length = ts'.length ∧
      (done.foldl Loader.take ld).off = ld.off + (done.flatMap tokenBytes).length ∧
      (done.foldl Loader.take ld).seen = (done.filterMap id).reverse ++ ld.seen := by
  induction done generalizing ld ts with
  | nil => exact ⟨ts, by simp, hts.symm, hlen, rfl, rfl⟩
  | cons token done ih =>
    have hne : ld.slots ≠ [] := by
      rintro h
      rw [h] at hlen
      rw [List.length_eq_zero_iff.1 hlen.symm] at hts
      cases hts
    obtain ⟨slot, slots, hslots⟩ := List.exists_cons_of_ne_nil hne
    rw [List.flatMap_cons, readsBytes_append_iff] at hr
    rw [List.flatMap_cons, List.length_append] at havail
    have hseen : (((token :: done).filterMap id).reverse ++ ld.seen) =
        (done.filterMap id).reverse ++ (ld.take token).seen := by
      rw [Loader.take_seen hne]
      cases token <;> simp
    have hfresh : ∀ sym ∈ token, sym ∉ ld.seen := by
      rintro sym rfl
      rw [hseen, Loader.take_seen hne] at hnew
      exact (List.nodup_cons.1 hnew.of_append_right).1
    have hpos : 0 < (tokenBytes token).length := by cases token <;> simp [tokenBytes]
    have hpass : loadLoop s avail ((token :: done).length + room) ld =
        loadLoop s avail (done.length + room) (ld.take token) := by
      rw [List.length_cons, Nat.add_right_comm, loadLoop_of_node_ok hslots (by omega)
        (loadNode_eq_take hslots hr.1 (by omega) hfresh)]
    have hoff := Loader.take_off hne token
    obtain ⟨ts1, hts1, hlen1⟩ : ∃ ts1 : List HuffTree, ts1.flatMap HuffTree.tokens = done ++ rest ∧
        (ld.take token).slots.length = ts1.length := by
      rw [hslots] at hlen
      obtain ⟨t, ts, rfl⟩ := List.exists_cons_of_length_eq_add_one hlen.symm
      cases t with
      | leaf sym =>
        simp only [List.flatMap_cons, HuffTree.tokens_leaf, List.cons_append,
          List.cons.injEq] at hts
        obtain ⟨rfl, hts⟩ := hts
        exact ⟨ts, hts, by rw [Loader.take_some hslots]; simpa using hlen⟩
      | node l r =>
        simp only [List.flatMap_cons, HuffTree.tokens_node, List.cons_append, List.cons.injEq] at hts
        obtain ⟨rfl, hts⟩ := hts
        exact ⟨l :: r :: ts, by simpa using hts, by rw [Loader.take_none hslots]; simpa using hlen⟩
    obtain ⟨ts', hloop, hrest, hlen', hoff', hseen'⟩ := ih hts1 hlen1 (hoff ▸ hr.2) (by omega) (hseen ▸ hnew)
    refine ⟨ts', hpass.trans hloop, hrest, hlen', ?_, by rw [hseen]; exact hseen'⟩
    rw [List.foldl_cons, hoff', hoff, List.flatMap_cons, List.length_append, Nat.add_assoc]

/-! ## The arena of one tree -/

/-- What the nodes of a tree, read into the top slot, make of the loader `ld`: the slot holds the index of the first, the
rest of the earlier nodes stay, and from that index on stands the tree's preorder (43_tree_codec.md R168). -/
structure TakesTree (ld ld' : Loader) (slot : Slot) (rest : List Slot) (t : HuffTree) : Prop where
  slots : ld'.slots = rest
  cnt : ld'.cnt = ld.cnt + t.tokens.length
  old : ∀ i : NodeIdx, i.val < ld.cnt → ld'.node[i] = (fillSlot ld.node slot (Fin.ofNat 511 ld.cnt))[i]
  new : ∀ (i : NodeIdx) (j : Nat), i.val = ld.cnt + j → j < t.tokens.length →
    (t.preorderNodes ld.cnt)[j]? = some ld'.node[i]

/-- A placed node changes the earlier ones by its slot alone. -/
theorem placeNode_old {node : Vector Node 511} {slot : Slot} {k i : NodeIdx} (v : Node) (hi : i.val < k.val) :
    (placeNode node slot k v)[i] = (fillSlot node slot k)[i] := by
  rw [placeNode_getElem_of_lt v rfl hi, fillSlot_getElem]

theorem takesTree_leaf {ld : Loader} {slot : Slot} {rest : List Slot} (sym : Sym) (hslots : ld.slots = slot :: rest)
    (hb : slot.Below ld.cnt) (hfit : ld.cnt < 511) : TakesTree ld (ld.take (some sym)) slot rest (.leaf sym) := by
  have hk : (Fin.ofNat 511 ld.cnt).val = ld.cnt := Nat.mod_eq_of_lt hfit
  rw [Loader.take_some hslots]
  refine ⟨rfl, rfl, fun i hi => placeNode_old _ (hi.trans_eq hk.symm), fun i j hi hj => ?_⟩
  obtain rfl : j = 0 := Nat.lt_one_iff.1 hj
  obtain rfl : i = Fin.ofNat 511 ld.cnt := Fin.ext (hi.trans hk.symm)
  exact congrArg some (placeNode_self _ hb hk).symm

/-- Two trees read into the slots of a new internal node make the tree of that node. -/
theorem takesTree_node {ld ld1 ld2 : Loader} {slot : Slot} {rest : List Slot} {l r : HuffTree}
    (hslots : ld.slots = slot :: rest) (hb : slot.Below ld.cnt) (hfit : ld.cnt + (HuffTree.node l r).tokens.length ≤ 511)
    (hl : TakesTree (ld.take none) ld1 (.left (Fin.ofNat 511 ld.cnt)) (.right (Fin.ofNat 511 ld.cnt) :: rest) l)
    (hr : TakesTree ld1 ld2 (.right (Fin.ofNat 511 ld.cnt)) rest r) : TakesTree ld ld2 slot rest (.node l r) := by
  have hlenl := l.tokens_length
  have hlenr := r.tokens_length
  have hposl := l.symbols_length_pos
  have hposr := r.symbols_length_pos
  simp only [HuffTree.tokens_node, List.length_cons, List.length_append] at hfit
  have hk : (Fin.ofNat 511 ld.cnt).val = ld.cnt := Nat.mod_eq_of_lt (by omega)
  rw [Loader.take_none hslots] at hl
  generalize hkdef : Fin.ofNat 511 ld.cnt = k at *
  obtain ⟨-, hcnt1, old1, new1⟩ := hl
  obtain ⟨hslots2, hcnt2, old2, new2⟩ := hr
  dsimp only at hcnt1 old1 new1
  have other : ∀ i : NodeIdx, i.val < ld1.cnt → i ≠ k → ld2.node[i] = ld1.node[i] := fun i hi hne => by
    rw [old2 i hi, fillSlot_getElem, if_neg (by simp), if_neg (by simpa using fun h => hne h.symm)]
  have self : ld2.node[k] = .internal (Fin.ofNat 511 (ld.cnt + 1)) (Fin.ofNat 511 ld1.cnt) 0#40 := by
    rw [old2 k (by omega), fillSlot_getElem, if_neg (by simp), if_pos rfl, old1 k (by omega), fillSlot_getElem,
      if_pos rfl, placeNode_self _ hb hk]
    rfl
  refine ⟨hslots2, ?_, fun i hi => ?_, fun i j hi hj => ?_⟩
  · simp only [HuffTree.tokens_node, List.length_cons, List.length_append]
    omega
  · have hne : i ≠ k := fun h => by
      subst h
      omega
    rw [other i (by omega) hne, old1 i (by omega), fillSlot_getElem, if_neg (by simpa using fun h => hne h.symm),
      if_neg (by simp), placeNode_old _ (by omega)]
    rw [hkdef]
  · cases j with
    | zero =>
      obtain rfl : i = k := Fin.ext (hi.trans hk.symm)
      rw [self, hcnt1]
      simp only [HuffTree.preorderNodes, List.getElem?_cons_zero]
      rw [show ld.cnt + 1 + l.tokens.length = ld.cnt + 2 * l.symbols.length by omega]
    | succ j =>
      simp only [HuffTree.preorderNodes, List.getElem?_cons_succ]
      by_cases hlt : j < l.tokens.length
      · rw [List.getElem?_append_left (by rwa [HuffTree.preorderNodes_length]), new1 i j (by omega) hlt,
          other i (by omega) (fun h => by subst h; omega)]
      · rw [List.getElem?_append_right (by rw [HuffTree.preorderNodes_length]; omega), HuffTree.preorderNodes_length,
          show ld.cnt + 2 * l.symbols.length = ld1.cnt by omega]
        refine new2 i _ (by omega) ?_
        simp only [HuffTree.tokens_node, List.length_cons, List.length_append] at hj
        omega

/-- The nodes of a tree make that tree in the top slot. -/
theorem takesTree_tokens (t : HuffTree) {ld : Loader} {slot : Slot} {rest : List Slot} (hslots : ld.slots = slot :: rest)
    (hb : slot.Below ld.cnt) (hfit : ld.cnt + t.tokens.length ≤ 511) :
    TakesTree ld (t.tokens.foldl Loader.take ld) slot rest t := by
  induction t generalizing ld slot rest with
  | leaf sym => exact takesTree_leaf sym hslots hb hfit
  | node l r ihl ihr =>
    have hfit' := hfit
    simp only [HuffTree.tokens_node, List.length_cons, List.length_append] at hfit'
    have hk : (Fin.ofNat 511 ld.cnt).val = ld.cnt := Nat.mod_eq_of_lt (by omega)
    have hslots1 := congrArg Loader.slots (Loader.take_none hslots)
    have hcnt1 := congrArg Loader.cnt (Loader.take_none hslots)
    dsimp only at hslots1 hcnt1
    have hl := ihl hslots1 (show (Fin.ofNat 511 ld.cnt).val < _ by omega) (by omega)
    have hcnt2 := hl.cnt
    have hr := ihr hl.slots (show (Fin.ofNat 511 ld.cnt).val < _ by omega) (by omega)
    rw [HuffTree.tokens_node, List.foldl_cons, List.foldl_append]
    exact takesTree_node hslots hb hfit hl hr

end Sys2Proof.Machine

/-! LOAD: what it rebuilds, what it accepts, and the errors it reports (43_tree_codec.md R163 to R169). -/

namespace Sys2Proof.Machine

/-! ## What a LOAD that succeeds read -/

/-- A LOAD that completes without error parsed its stream and installed the tree. -/
theorem parseTree_of_exec_load {s t : State} (h : exec .load s = .next t) (h0 : t.err = 0#4) :
    ∃ ld, parseTree s = .ok ld ∧ t = (s.installTree ⟨ld.node, 0, BitVec.ofNat 9 ld.leaves⟩).complete
      (BitVec.ofNat 32 ld.off) (BitVec.ofNat 32 ld.leaves) := by
  have raised : ∀ e : CmdError, exec .load s ≠ .next (s.dropTree.raiseError e) := fun e he => by
    obtain rfl := Host.Outcome.next.inj (h.symm.trans he)
    exact e.kind.code_ne_zero h0
  cases hc : commandChecks .load s with
  | error e => exact absurd (by simp only [exec, execLoad, hc]) (raised e)
  | ok u =>
    cases hparse : parseTree s with
    | error e => exact absurd (by simp only [exec, execLoad, hc, hparse]) (raised e)
    | ok ld => exact ⟨ld, rfl, Host.Outcome.next.inj (h.symm.trans (by simp only [exec, execLoad, hc, hparse]))⟩

/-- Settles O38: the parse read exactly the bytes of the tree it made. -/
theorem loadAcceptsOnlySerializedTrees : Obligations.LoadAcceptsOnlySerializedTrees := by
  unfold Obligations.LoadAcceptsOnlySerializedTrees
  intro s t h h0
  obtain ⟨ld, hparse, rfl⟩ := parseTree_of_exec_load h h0
  obtain ⟨tr, htr, hreads, -, hoff, hle⟩ := parseTree_holdsTree hparse
  exact ⟨tr, htr, hoff ▸ hle, by rw [State.complete_result0, hoff], regionBytes_of_readsBytes hreads⟩

/-! ## LOAD of a serialized tree -/

theorem tokens_filterMap_id (t : HuffTree) : t.tokens.filterMap id = t.symbols := by
  induction t with
  | leaf sym => rfl
  | node l r ihl ihr =>
    rw [HuffTree.tokens_node, List.filterMap_cons_none rfl, List.filterMap_append, ihl, ihr, HuffTree.symbols_node]

/-- A stream that begins with bytes `x` and, from the same offset, with bytes `y` as many, begins with `x = y`. -/
theorem ReadsBytes.unique {s : State} {base : Addr} {off : Nat} {x y : List Byte} (hx : ReadsBytes s base off x)
    (hy : ReadsBytes s base off y) (hlen : x.length = y.length) : x = y :=
  List.ext_getElem hlen fun j hj hj' => Except.ok.inj ((hx j hj).symm.trans (hy j hj'))

/-- The parse of a serialized tree takes its nodes, and their bytes. -/
theorem parseTree_of_serialize {s : State} {t : HuffTree} (hd : t.symbols.Nodup)
    (hr : ReadsBytes s s.larg0 0 t.serialize) (havail : t.serialize.length ≤ s.larg1.toNat) :
    parseTree s = .ok (t.tokens.foldl Loader.take (loaderStart s.freeNodes)) ∧
      (t.tokens.foldl Loader.take (loaderStart s.freeNodes)).off = t.serialize.length := by
  have hlen := t.tokens_length
  have hsyms := symbols_length_le_of_nodup hd
  obtain ⟨room, hroom⟩ := Nat.exists_eq_add_of_le (show t.tokens.length ≤ Config.nodeCap by unfold Config.nodeCap; omega)
  obtain ⟨ts, hloop, hrest, hslots, hoff, -⟩ := loadLoop_takes (s := s) (avail := s.larg1.toNat) room
    (ld := loaderStart s.freeNodes) (ts := [t]) (done := t.tokens) (rest := [])
    (by simp) rfl (by rwa [← HuffTree.serialize_eq_tokens])
    (by rwa [← HuffTree.serialize_eq_tokens, loaderStart, Nat.zero_add])
    (by rw [tokens_filterMap_id]; simpa [loaderStart] using hd)
  have hempty : ts = [] := by
    cases ts with
    | nil => rfl
    | cons t ts => cases t <;> simp at hrest
  rw [hempty] at hslots
  refine ⟨?_, by rw [hoff, HuffTree.serialize_eq_tokens, loaderStart, Nat.zero_add]⟩
  rw [parseTree, hroom, hloop]
  cases room with
  | zero => rw [loadLoop, List.length_eq_zero_iff.1 hslots]
  | succ room => rw [loadLoop, List.length_eq_zero_iff.1 hslots]

/-- When LOAD's parse succeeds, LOAD installs its arena. -/
theorem exec_load_of_parse_ok {s : State} {ld : Loader} (hfit : (sourceRegion .load s).Fits) (h : parseTree s = .ok ld) :
    exec .load s = .next ((s.installTree ⟨ld.node, 0, BitVec.ofNat 9 ld.leaves⟩).complete (BitVec.ofNat 32 ld.off)
      (BitVec.ofNat 32 ld.leaves)) := by
  have hc := commandChecks_load_eq_ok_iff.2 hfit
  simp only [exec, execLoad, hc, h]

/-- From an empty arena the nodes of a tree make an arena that begins with its preorder. -/
theorem TakesTree.take_toList {ld ld' : Loader} {slot : Slot} {rest : List Slot} {t : HuffTree}
    (h : TakesTree ld ld' slot rest t) (h0 : ld.cnt = 0) (hlen : t.tokens.length ≤ 511) :
    ld'.node.toList.take t.tokens.length = t.preorderNodes 0 := by
  refine List.ext_getElem (by simpa [HuffTree.preorderNodes_length] using hlen) fun j hj hj' => ?_
  rw [HuffTree.preorderNodes_length] at hj'
  have hnew := h.new ⟨j, by omega⟩ j (by simp [h0]) hj'
  rw [h0] at hnew
  simpa using ((List.getElem_eq_iff _).2 hnew).symm

/-- Settles O37: the parse takes the nodes of the tree, and leaves them in preorder. -/
theorem loadRebuildsASerializedTree : Obligations.LoadRebuildsASerializedTree := by
  unfold Obligations.LoadRebuildsASerializedTree
  intro s tr ⟨hd, hfit, havail, hr, hbytes⟩
  have hreads := readsBytes_of_regionBytes hr hbytes
  obtain ⟨hparse, hlen⟩ := parseTree_of_serialize hd hreads havail
  have hnodesLe : tr.tokens.length ≤ 511 := by
    have := tr.tokens_length
    have := symbols_length_le_of_nodup hd
    omega
  have htakes := takesTree_tokens tr (ld := loaderStart s.freeNodes) rfl trivial
    (by simpa [loaderStart] using hnodesLe)
  obtain ⟨t, ht, hreads', hleaves, hoff, -⟩ := parseTree_holdsTree hparse
  obtain rfl : t = tr := (HuffTree.serialize_append_inj (x := []) (y := []) (by
    rw [hreads'.unique hreads (hoff.symm.trans hlen)])).1
  have hnodes := htakes.take_toList rfl hnodesLe
  rw [t.tokens_length] at hnodes
  refine ⟨_, exec_load_of_parse_ok hfit hparse, ht, rfl, hnodes, rfl, rfl, ?_, ⟨rfl, rfl⟩, fun _ => rfl, ?_⟩
  · rw [hleaves, hoff]
    exact ⟨rfl, rfl, rfl, rfl, rfl, rfl, rfl⟩
  · exact ((s.installTree_writes _).complete_ends _ _).idle_done_keepsControl.2.2

/-! ## Malformed streams -/

/-- When LOAD's parse fails, LOAD raises its error and drops the old tree. -/
theorem exec_load_of_parse_error {s : State} {e : CmdError} (hfit : (sourceRegion .load s).Fits)
    (h : parseTree s = .error e) :
    ∃ t, exec .load s = .next t ∧ Raised s t e ∧ t.treeValid = false ∧ t.codesValid = false ∧ KeepsFreq s t ∧
      KeepsMemory s t ∧ KeepsControl s t := by
  have hc := commandChecks_load_eq_ok_iff.2 hfit
  obtain ⟨hraised, ⟨hfreq, -⟩, hmem, hcontrol⟩ := s.dropTree.raiseError_frame e
  exact ⟨s.dropTree.raiseError e, by simp only [exec, execLoad, hc, h], hraised, rfl, rfl, hfreq, hmem, hcontrol⟩

/-- The parse comes to the loader `ld` with `room` nodes of the arena left, a slot open, `n` bytes read and the leaf
symbols of `done` seen. -/
theorem parseTree_eq_from {s : State} {t : HuffTree} {done rest : List (Option Sym)} (htokens : t.tokens = done ++ rest)
    (hrest : rest ≠ []) (hd : (done.filterMap id).Nodup) (hcap : done.length ≤ 511)
    (havail : (done.flatMap tokenBytes).length ≤ s.larg1.toNat)
    (hr : ReadsBytes s s.larg0 0 (done.flatMap tokenBytes)) :
    ∃ ld slot slots, parseTree s = loadLoop s s.larg1.toNat (511 - done.length) ld ∧ ld.slots = slot :: slots ∧
      ld.off = (done.flatMap tokenBytes).length ∧ ∀ sym, some sym ∈ done → sym ∈ ld.seen := by
  obtain ⟨ts, hloop, hleft, hslots, hoff, hseen⟩ := loadLoop_takes (s := s) (avail := s.larg1.toNat) (511 - done.length)
    (ld := loaderStart s.freeNodes) (ts := [t]) (done := done) (rest := rest) (by simpa using htokens) rfl hr
    (by rwa [loaderStart, Nat.zero_add]) (by simpa [loaderStart] using hd)
  have hne : (done.foldl Loader.take (loaderStart s.freeNodes)).slots ≠ [] := by
    intro h
    rw [h] at hslots
    rw [List.length_eq_zero_iff.1 hslots.symm] at hleft
    exact hrest hleft
  obtain ⟨slot, slots, hcons⟩ := List.exists_cons_of_ne_nil hne
  refine ⟨_, slot, slots, ?_, hcons, by rw [hoff, loaderStart, Nat.zero_add], fun sym hsym => ?_⟩
  · rw [← hloop, Nat.add_sub_cancel' hcap]
    rfl
  · rw [hseen]
    simpa [loaderStart] using hsym

/-- With no byte left and a slot open the stream is truncated. -/
theorem loadLoop_truncated {s : State} {room : Nat} {ld : Loader} {slot : Slot} {rest : List Slot} {avail : Nat}
    (hslots : ld.slots = slot :: rest) (havail : ld.off = avail) :
    loadLoop s avail room ld = .error (malformed ld.off 1#3 0#8) := by
  cases room with
  | zero =>
    rw [loadLoop]
    simp only [hslots, if_pos havail]
  | succ room =>
    rw [loadLoop]
    simp only [hslots, if_pos havail]

/-- With bytes left, a slot open and no node of the arena left there are too many nodes. -/
theorem loadLoop_tooMany {s : State} {ld : Loader} {slot : Slot} {rest : List Slot} {avail : Nat}
    (hslots : ld.slots = slot :: rest) (havail : ld.off ≠ avail) :
    loadLoop s avail 0 ld = .error (malformed ld.off 4#3 0#8) := by
  rw [loadLoop]
  simp only [hslots, if_neg havail]

section Pass

variable {s : State} {avail : Nat} {slot : Slot} {slots : List Slot} {ld : Loader}

theorem loadNode_of_busError (h : s.platform.busError (addrAt s.larg0 ld.off) .read = true) :
    loadNode s avail slot slots ld = .error ⟨.ioFailure, addrAt s.larg0 ld.off, 0#11⟩ := by
  rw [loadNode, engineRead_of_busError h]

theorem loadNode_of_badTag (h : s.platform.busError (addrAt s.larg0 ld.off) .read = false)
    (htag : 0x01#8 < byteAt s s.larg0 ld.off) :
    loadNode s avail slot slots ld = .error (malformed ld.off 2#3 (byteAt s s.larg0 ld.off)) := by
  have h0 : byteAt s s.larg0 ld.off ≠ 0x00#8 := fun he => by
    rw [he] at htag
    exact absurd htag (by decide)
  have h1 : byteAt s s.larg0 ld.off ≠ 0x01#8 := fun he => by
    rw [he] at htag
    exact absurd htag (by decide)
  rw [loadNode, engineRead_of_readable h]
  simp only [h0, h1, if_false]

variable (h : s.platform.busError (addrAt s.larg0 ld.off) .read = false) (htag : byteAt s s.larg0 ld.off = 0x01#8)

include h htag

/-- At a leaf's tag the pass goes on to the symbol. -/
theorem loadNode_leaf_truncated (havail : ld.off + 1 = avail) :
    loadNode s avail slot slots ld = .error (malformed (ld.off + 1) 1#3 0#8) := by
  rw [loadNode, engineRead_of_readable h, htag]
  simp only [show ¬ (0x01#8 : Byte) = 0x00#8 by decide, if_false, if_true, if_pos havail]

theorem loadNode_leaf_busError (havail : ld.off + 1 ≠ avail)
    (hb : s.platform.busError (addrAt s.larg0 (ld.off + 1)) .read = true) :
    loadNode s avail slot slots ld = .error ⟨.ioFailure, addrAt s.larg0 (ld.off + 1), 0#11⟩ := by
  rw [loadNode, engineRead_of_readable h, htag]
  simp only [show ¬ (0x01#8 : Byte) = 0x00#8 by decide, if_false, if_true, if_neg havail, engineRead_of_busError hb]

theorem loadNode_leaf_duplicate (havail : ld.off + 1 ≠ avail)
    (hb : s.platform.busError (addrAt s.larg0 (ld.off + 1)) .read = false)
    (hseen : byteAt s s.larg0 (ld.off + 1) ∈ ld.seen) :
    loadNode s avail slot slots ld = .error (malformed (ld.off + 1) 3#3 (byteAt s s.larg0 (ld.off + 1))) := by
  rw [loadNode, engineRead_of_readable h, htag]
  simp only [show ¬ (0x01#8 : Byte) = 0x00#8 by decide, if_false, if_true, if_neg havail, engineRead_of_readable hb,
    if_pos hseen]

end Pass

/-- Settles O39: the parse comes to the end of the nodes `done`, and its next pass fails. -/
theorem loadReportsMalformedStreams : Obligations.LoadReportsMalformedStreams := by
  unfold Obligations.LoadReportsMalformedStreams
  intro s tr done rest hfit htokens hrest hd hcap n readable havail hbytes hr fails malformedAt
  obtain ⟨ld, slot, slots, hparse, hslots, hoff, hseen⟩ :=
    parseTree_eq_from htokens hrest hd hcap havail (readsBytes_of_regionBytes hr hbytes)
  change ld.off = n at hoff
  have failing : ∀ e, parseTree s = .error e → fails e := fun e => exec_load_of_parse_error hfit
  rw [← hoff]
  refine ⟨fun hn => failing _ ?_, fun hn hfull => failing _ ?_, fun hn hroom => ?_⟩
  · exact hparse.trans (loadLoop_truncated hslots hn.symm)
  · rw [hparse, hfull]
    exact loadLoop_tooMany hslots hn.ne
  have pass : ∀ e, loadNode s s.larg1.toNat slot slots ld = .error e → fails e := fun e he => failing e (by
    rw [hparse, show 511 - done.length = 510 - done.length + 1 by omega]
    exact loadLoop_of_node_error hslots hn.ne he)
  have notReadable : ∀ k, ¬ readable k → s.platform.busError (addrAt s.larg0 k) .read = true := fun k =>
    (Bool.not_eq_false _).mp
  refine ⟨fun hb => pass _ (loadNode_of_busError (notReadable _ hb)), fun hb htag => pass _ (loadNode_of_badTag hb htag),
    fun hb htag => ⟨fun hend => pass _ (loadNode_leaf_truncated hb htag hend.symm), fun hmore hb' => pass _ ?_,
      fun hmore hb' hdup => pass _ ?_⟩⟩
  · exact loadNode_leaf_busError hb htag (by omega) (notReadable _ hb')
  · exact loadNode_leaf_duplicate hb htag (by omega) hb' (hseen _ hdup)

end Sys2Proof.Machine

/-! BUILD's tree is optimal: the exchange argument on the weights and depths of leaves (41_tree_builder.md R125). -/

namespace Sys2Proof.Machine

/-! ## The depths of a tree's leaves -/

/-- The depths of the leaves. -/
def HuffTree.depths : HuffTree → Multiset Nat
  | .leaf _ => {0}
  | .node l r => (l.depths + r.depths).map (· + 1)

theorem HuffTree.depths_node_comm (l r : HuffTree) : (HuffTree.node l r).depths = (HuffTree.node r l).depths := by
  simp only [HuffTree.depths, add_comm]

/-- The leaves' paths are as long as the leaves are deep. -/
theorem HuffTree.map_length_leafPaths (t : HuffTree) (p : List Bool) :
    (((t.leafPaths p).map fun c => c.2.length : List Nat) : Multiset Nat) = t.depths.map (· + p.length) := by
  induction t generalizing p with
  | leaf sym => simp [HuffTree.leafPaths, HuffTree.depths]
  | node l r ihl ihr =>
    have hstep : ((· + p.length) ∘ (· + 1) : Nat → Nat) = (· + (p.length + 1)) := funext fun d => Nat.add_right_comm d 1 _
    rw [HuffTree.leafPaths, List.map_append, ← Multiset.coe_add, ihl, ihr, HuffTree.depths, Multiset.map_map, hstep,
      Multiset.map_add, List.length_append, List.length_append, List.length_singleton, List.length_singleton]

/-- `m` is the depth of the deepest leaf: of the only one, or of two siblings, in whose place another tree has one leaf at
their parent's depth. -/
def HuffTree.Deepest (t : HuffTree) (m : Nat) : Prop :=
  (∀ e ∈ t.depths, e ≤ m) ∧ (t.depths = {0} ∧ m = 0 ∨
    ∃ (d : Nat) (rest : Multiset Nat) (u : HuffTree), m = d + 1 ∧ t.depths = (d + 1) ::ₘ (d + 1) ::ₘ rest ∧
      u.depths = d ::ₘ rest)

/-- The deepest leaf of a node is the deeper child's. -/
theorem HuffTree.Deepest.node_left {l r : HuffTree} {a b : Nat} (hl : l.Deepest a) (hr : r.Deepest b) (hle : b ≤ a) :
    (HuffTree.node l r).Deepest (a + 1) := by
  obtain ⟨hboundl, hl⟩ := hl
  obtain ⟨hboundr, hr⟩ := hr
  refine ⟨?_, .inr ?_⟩
  · intro e he
    obtain ⟨d, hd, rfl⟩ := Multiset.mem_map.1 he
    rcases Multiset.mem_add.1 hd with hd | hd
    · exact Nat.succ_le_succ (hboundl d hd)
    · exact Nat.succ_le_succ ((hboundr d hd).trans hle)
  · rcases hl with ⟨hdepths, rfl⟩ | ⟨d, rest, u, rfl, hdepths, hu⟩
    · rcases hr with ⟨hdepthsr, -⟩ | ⟨d, rest, u, rfl, -⟩
      · exact ⟨0, 0, .leaf 0#8, rfl, by simp [HuffTree.depths, hdepths, hdepthsr], by simp [HuffTree.depths]⟩
      · omega
    · exact ⟨d + 1, (rest + r.depths).map (· + 1), .node u r, rfl, by simp [HuffTree.depths, hdepths],
        by simp [HuffTree.depths, hu]⟩

theorem HuffTree.exists_deepest (t : HuffTree) : ∃ m, t.Deepest m := by
  induction t with
  | leaf sym => exact ⟨0, by simp [HuffTree.depths], .inl ⟨rfl, rfl⟩⟩
  | node l r ihl ihr =>
    obtain ⟨a, ha⟩ := ihl
    obtain ⟨b, hb⟩ := ihr
    rcases le_total b a with hle | hle
    · exact ⟨a + 1, ha.node_left hb hle⟩
    · refine ⟨b + 1, ?_⟩
      rw [HuffTree.Deepest, HuffTree.depths_node_comm]
      exact hb.node_left ha hle

/-! ## Weights at depths -/

/-- The weighted sum of depths. -/
def pairCost (P : Multiset (Nat × Nat)) : Nat := (P.map fun c => c.1 * c.2).sum

theorem pairCost_cons (c : Nat × Nat) (P : Multiset (Nat × Nat)) : pairCost (c ::ₘ P) = c.1 * c.2 + pairCost P := by
  simp [pairCost]

/-- The exchange: a least weight moves to a greatest depth at no cost, and is taken away from there. -/
theorem exists_exchange {P : Multiset (Nat × Nat)} {x m : Nat} {W D : Multiset Nat} (hW : P.map Prod.fst = x ::ₘ W)
    (hD : P.map Prod.snd = m ::ₘ D) (hx : ∀ w ∈ W, x ≤ w) (hm : ∀ e ∈ D, e ≤ m) :
    ∃ Q : Multiset (Nat × Nat), Q.map Prod.fst = W ∧ Q.map Prod.snd = D ∧ x * m + pairCost Q ≤ pairCost P := by
  obtain ⟨⟨x', e⟩, hmem, rfl⟩ : ∃ c ∈ P, c.1 = x := Multiset.mem_map.1 (hW ▸ Multiset.mem_cons_self _ _)
  obtain ⟨P, rfl⟩ := Multiset.exists_cons_of_mem hmem
  rw [Multiset.map_cons, Multiset.cons_inj_right] at hW
  rw [Multiset.map_cons] at hD
  by_cases he : e = m
  · subst he
    rw [Multiset.cons_inj_right] at hD
    exact ⟨P, hW, hD, (pairCost_cons _ _).ge⟩
  · obtain ⟨⟨v, m'⟩, hmem', hm'⟩ : ∃ c ∈ P, c.2 = m := Multiset.mem_map.1
      ((Multiset.mem_cons.1 (hD ▸ Multiset.mem_cons_self m D : m ∈ e ::ₘ P.map Prod.snd)).resolve_left (Ne.symm he))
    dsimp only at hm' hW hD hx
    subst hm'
    obtain ⟨P, rfl⟩ := Multiset.exists_cons_of_mem hmem'
    rw [Multiset.map_cons] at hW
    rw [Multiset.map_cons, Multiset.cons_swap, Multiset.cons_inj_right] at hD
    refine ⟨(v, e) ::ₘ P, by rw [Multiset.map_cons, hW], by rw [Multiset.map_cons, hD], ?_⟩
    have hxv : x' ≤ v := hx v (hW ▸ Multiset.mem_cons_self _ _)
    have hem : e ≤ m' := hm e (hD ▸ Multiset.mem_cons_self _ _)
    have hswap := mul_add_mul_le_mul_add_mul hxv hem
    simp only [pairCost_cons]
    linarith

/-- Two least weights merge into their sum, one level up, at the cost of both. -/
theorem exists_merged {P : Multiset (Nat × Nat)} {x y : Nat} {W : Multiset Nat} {t : HuffTree}
    (hW : P.map Prod.fst = x ::ₘ y ::ₘ W) (hD : P.map Prod.snd = t.depths) (hxy : x ≤ y) (hy : ∀ w ∈ W, y ≤ w) :
    ∃ (Q : Multiset (Nat × Nat)) (u : HuffTree), Q.map Prod.fst = (x + y) ::ₘ W ∧ Q.map Prod.snd = u.depths ∧
      pairCost Q + (x + y) ≤ pairCost P := by
  obtain ⟨m, hbound, ⟨hsingle, -⟩ | ⟨d, rest, u, rfl, hdepths, hu⟩⟩ := t.exists_deepest
  · have hcard := congrArg Multiset.card hW
    rw [Multiset.card_map, ← Multiset.card_map Prod.snd, hD, hsingle] at hcard
    simp at hcard
  · rw [hdepths] at hD hbound
    have hdeeper : ∀ e ∈ (d + 1) ::ₘ rest, e ≤ d + 1 := fun e he => hbound e (Multiset.mem_cons_of_mem he)
    obtain ⟨Q, hQW, hQD, hQ⟩ := exists_exchange hW hD
      (fun w hw => (Multiset.mem_cons.1 hw).elim (fun h => h ▸ hxy) fun h => hxy.trans (hy w h)) hdeeper
    obtain ⟨R, hRW, hRD, hR⟩ := exists_exchange hQW hQD hy fun e he => hdeeper e (Multiset.mem_cons_of_mem he)
    refine ⟨(x + y, d) ::ₘ R, u, by rw [Multiset.map_cons, hRW], by rw [Multiset.map_cons, hRD, hu], ?_⟩
    rw [pairCost_cons]
    dsimp only
    linarith

/-! ## The cost of a tree -/

/-- The leaves' weighted depths below a node: its tree's own, and its depth for each unit of weight. -/
theorem HuffTree.cost_leafPaths (freq : Vector Word 256) (t : HuffTree) (p : List Bool) :
    ((t.leafPaths p).map fun c => (freqOf freq c.1).toNat * c.2.length).sum =
      t.cost freq + p.length * t.weight freq := by
  induction t generalizing p with
  | leaf sym => simp [HuffTree.leafPaths, HuffTree.cost, HuffTree.weight, weightOf, Nat.mul_comm]
  | node l r ihl ihr =>
    rw [HuffTree.cost, HuffTree.leafPaths, HuffTree.leafPaths, List.map_append, List.map_append, List.sum_append,
      List.sum_append, ihl, ihr, ihl, ihr, HuffTree.weight_node]
    simp only [List.length_append, List.length_singleton, List.length_nil]
    ring

theorem HuffTree.cost_leaf (freq : Vector Word 256) (sym : Sym) : (HuffTree.leaf sym).cost freq = 0 := rfl

theorem HuffTree.cost_node (freq : Vector Word 256) (l r : HuffTree) :
    (HuffTree.node l r).cost freq = l.cost freq + r.cost freq + (l.weight freq + r.weight freq) := by
  rw [HuffTree.cost, HuffTree.leafPaths, List.map_append, List.sum_append, HuffTree.cost_leafPaths,
    HuffTree.cost_leafPaths]
  simp only [List.nil_append, List.length_singleton]
  omega

/-- The weights and depths of a tree's leaves. -/
def HuffTree.pairs (freq : Vector Word 256) (t : HuffTree) : Multiset (Nat × Nat) :=
  ((t.leafPaths []).map fun c => ((freqOf freq c.1).toNat, c.2.length) : List (Nat × Nat))

theorem HuffTree.pairCost_pairs (freq : Vector Word 256) (t : HuffTree) : pairCost (t.pairs freq) = t.cost freq := by
  simp [pairCost, HuffTree.pairs, HuffTree.cost, Function.comp_def]

theorem HuffTree.map_snd_pairs (freq : Vector Word 256) (t : HuffTree) : (t.pairs freq).map Prod.snd = t.depths := by
  have h := t.map_length_leafPaths []
  simp only [List.length_nil, Nat.add_zero, Multiset.map_id'] at h
  rw [← h]
  simp [HuffTree.pairs, Function.comp_def]

theorem HuffTree.map_fst_pairs (freq : Vector Word 256) (t : HuffTree) :
    (t.pairs freq).map Prod.fst = (t.symbols.map fun sym => (freqOf freq sym).toNat : List Nat) := by
  rw [← t.leafPaths_symbols []]
  simp [HuffTree.pairs, Function.comp_def]

/-! ## The merges -/

/-- The weights of the trees in a pool. -/
def poolWeights (freq : Vector Word 256) (treeOf : NodeIdx → HuffTree) (pool : List NodeIdx) : Multiset Nat :=
  (pool.map fun i => (treeOf i).weight freq : List Nat)

/-- The costs of the trees in a pool together. -/
def poolCost (freq : Vector Word 256) (treeOf : NodeIdx → HuffTree) (pool : List NodeIdx) : Nat :=
  (pool.map fun i => (treeOf i).cost freq).sum

section Merge

variable {freq : Vector Word 256} {treeOf : NodeIdx → HuffTree} {pool rest : List NodeIdx} {x y k : NodeIdx}

theorem poolWeights_of_perm (h : pool.Perm (x :: y :: rest)) :
    poolWeights freq treeOf pool =
      (treeOf x).weight freq ::ₘ (treeOf y).weight freq ::ₘ poolWeights freq treeOf rest :=
  Multiset.coe_eq_coe.2 (h.map _)

theorem poolCost_of_perm (h : pool.Perm (x :: y :: rest)) :
    poolCost freq treeOf pool = (treeOf x).cost freq + ((treeOf y).cost freq + poolCost freq treeOf rest) := by
  rw [poolCost, (h.map _).sum_eq]
  rfl

theorem mergedTrees_self : mergedTrees treeOf k x y k = .node (treeOf x) (treeOf y) := Function.update_self ..

theorem mergedTrees_of_not_mem (hk : k ∉ rest) : ∀ i ∈ rest, mergedTrees treeOf k x y i = treeOf i :=
  fun i hi => Function.update_of_ne (fun he : i = k => hk (he ▸ hi)) _ _

/-- A merge puts the sum of two weights in their place. -/
theorem poolWeights_merged (hk : k ∉ rest) :
    poolWeights freq (mergedTrees treeOf k x y) (rest ++ [k]) =
      ((treeOf x).weight freq + (treeOf y).weight freq) ::ₘ poolWeights freq treeOf rest := by
  rw [poolWeights, List.map_append, List.map_singleton, mergedTrees_self, HuffTree.weight_node,
    List.map_congr_left fun i hi => by rw [mergedTrees_of_not_mem hk i hi], ← Multiset.coe_add, add_comm]
  rfl

/-- A merge costs the two weights. -/
theorem poolCost_merged (hk : k ∉ rest) :
    poolCost freq (mergedTrees treeOf k x y) (rest ++ [k]) =
      poolCost freq treeOf rest + ((treeOf x).cost freq + (treeOf y).cost freq +
        ((treeOf x).weight freq + (treeOf y).weight freq)) := by
  rw [poolCost, List.map_append, List.map_singleton, mergedTrees_self, HuffTree.cost_node, List.sum_append,
    List.sum_singleton, List.map_congr_left fun i hi => by rw [mergedTrees_of_not_mem hk i hi]]
  rfl

end Merge

/-- `n` merges of `n + 1` trees end in a tree that costs no more than any placing of the trees at the leaves of one
tree. -/
theorem Builder.Grown.mergeTimes_cost {freq : Vector Word 256} {b : Builder} {treeOf : NodeIdx → HuffTree} {n : Nat}
    {P : Multiset (Nat × Nat)} {t : HuffTree} (h : b.Grown freq treeOf) (hpool : b.pool.length = n + 1)
    (hW : P.map Prod.fst = poolWeights freq treeOf b.pool) (hD : P.map Prod.snd = t.depths) :
    ∃ treeOf' i, (b.mergeTimes n).Grown freq treeOf' ∧ (b.mergeTimes n).pool = [i] ∧
      (treeOf' i).cost freq ≤ pairCost P + poolCost freq treeOf b.pool := by
  induction n generalizing b treeOf P t with
  | zero =>
    obtain ⟨i, hi⟩ := List.length_eq_one_iff.1 hpool
    exact ⟨treeOf, i, h, hi, by simp [hi, poolCost]⟩
  | succ n ih =>
    have hcount := h.count
    have hlen := alphabet_length_le freq
    obtain ⟨x, y, k, rest, hperm, hk, hxy, hy, hmerge⟩ := Builder.exists_merge (b := b) (by omega) (by omega)
    have old : ∀ i ∈ x :: y :: rest, i.val < b.next ∧ b.node[i].freq.toNat = (treeOf i).weight freq := fun i hi =>
      ⟨(h.pooled i (hperm.mem_iff.2 hi)).1, (h.pooled i (hperm.mem_iff.2 hi)).2.2⟩
    have hnew : k ∉ rest := fun hmem => absurd (old k (by simp [hmem])).1 (by omega)
    have wx := (old x (by simp)).2
    have wy := (old y (by simp)).2
    rw [poolWeights_of_perm hperm] at hW
    obtain ⟨Q, u, hQW, hQD, hQ⟩ := exists_merged hW hD (wx ▸ wy ▸ hxy) (by
      intro w hw
      obtain ⟨z, hz, rfl⟩ := List.mem_map.1 (Multiset.mem_coe.1 hw)
      rw [← wy, ← (old z (by simp [hz])).2]
      exact hy z hz)
    have hlength := hperm.length_eq
    rw [Builder.mergeTimes, hmerge]
    obtain ⟨treeOf', i, hgrown, hi, hcost⟩ := ih (h.merge hperm hk) (by simp at hlength ⊢; omega)
      (hQW.trans (poolWeights_merged hnew).symm) hQD
    refine ⟨treeOf', i, hgrown, hi, hcost.trans ?_⟩
    rw [poolCost_merged hnew, poolCost_of_perm hperm]
    omega

/-! ## The tree BUILD makes -/

/-- A search that finds a tree finds the one that stands there. -/
theorem eq_of_treeBelow_of_treeAt {node : Vector Node 511} {fuel : Nat} {i : NodeIdx} {t u : HuffTree}
    (hu : treeBelow node fuel i = some u) (ht : TreeAt node i t) : u = t := by
  have hdeep := treeBelow_of_treeAt ht (Nat.lt_succ_self t.depth)
  have hmono := treeBelow_mono (le_max_left fuel (t.depth + 1)) hu
  exact Option.some.inj (hmono.symm.trans (treeBelow_mono (le_max_right fuel (t.depth + 1)) hdeep))

/-- The tree BUILD makes costs no more than any other over the alphabet. -/
theorem builtArena_cost_le {freq : Vector Word 256} {node : Vector Node 511} {tr other : HuffTree}
    (hne : alphabet freq ≠ []) (htr : (builtArena freq node).tree = some tr)
    (hother : other.symbols.Perm (alphabet freq)) : tr.cost freq ≤ other.cost freq := by
  have hstart := builderStart_grown freq node
  have hpos := List.length_pos_iff.2 hne
  have hforest := (builderStart_forest freq node).symbols
  have hweights : (other.pairs freq).map Prod.fst =
      poolWeights freq (fun i => .leaf ((alphabet freq).getD i.val 0#8)) (builderStart freq node).pool := by
    rw [HuffTree.map_fst_pairs, poolWeights]
    refine Multiset.coe_eq_coe.2 (((hother.trans hforest.symm).map _).trans (List.Perm.of_eq ?_))
    simp [HuffTree.weight, weightOf, ← List.map_eq_flatMap]
  obtain ⟨treeOf, i, hgrown, hpool, hcost⟩ := hstart.mergeTimes_cost (n := (alphabet freq).length - 1)
    (by simp [builderStart]; omega) hweights (other.map_snd_pairs freq)
  have hzero : poolCost freq (fun i => .leaf ((alphabet freq).getD i.val 0#8)) (builderStart freq node).pool = 0 := by
    simp [poolCost, HuffTree.cost_leaf]
  rw [hzero, Nat.add_zero, HuffTree.pairCost_pairs] at hcost
  have hroot : (builtArena freq node).root = i := by simp only [builtArena, hpool, List.headD_cons]
  have htree := (hgrown.pooled i (by simp [hpool])).2.1
  rw [Arena.tree, hroot] at htr
  rwa [eq_of_treeBelow_of_treeAt htr htree]

/-- Settles O29: Huffman's merges against the leaves of the other tree. -/
theorem builtTreeIsOptimal : Obligations.BuiltTreeIsOptimal := by
  unfold Obligations.BuiltTreeIsOptimal
  intro s t tr h hv htr other hd hmem
  have hw := freqWritten_of_exec_build h
  by_cases hnil : alphabet s.freq = []
  · obtain rfl := Host.Outcome.next.inj ((exec_build_of_nil hw hnil).symm.trans h)
    cases hv
  · obtain rfl := Host.Outcome.next.inj ((exec_build_of_ne_nil hw hnil).symm.trans h)
    simp only [State.complete_arena, State.installTree_arena] at htr
    exact builtArena_cost_le hnil htr ((List.perm_ext_iff_of_nodup hd (alphabet_nodup _)).2 fun sym =>
      (hmem sym).trans mem_alphabet_iff.symm)

end Sys2Proof.Machine
